-- ==== Sys2Proof/Word.lean ====
section
/-! DEFINITION. Word.lean: the bit vectors the manual treats as bits: a byte, a memory line, a timebase value. -/

namespace Sys2Proof

/-- One byte. -/
abbrev Byte := BitVec 8

/-- A line: 64 bytes of memory (00_scope.md 0.6).  Byte k is bits 8k to 8k + 7, and word i is bits 32i to 32i + 31,
least significant byte first, as R165 lays out the formats of the memory path. -/
abbrev Line := BitVec 512

/-- A value of the 48-bit timebase (R18).  Sums and differences are modulo 2^48. -/
abbrev Time := BitVec 48

/-- A 48-byte blob of a KEY or LICENCE write (4.2, 9.2), first byte most significant. -/
abbrev Blob := BitVec 384

end Sys2Proof
end

