-- ==== Sys2Proof/Syntax.lean ====
section
/-! DEFINITION. Syntax.lean: the commands of the RB640, one constructor for each row of spec/opcode_table.json, with
the names and record contents their operands are made of. -/

namespace Sys2Proof

/-- The eight originators, in the order of their 3-bit tags (00_scope.md 0.6). -/
inductive Originator where
  | proc | ingest | decode | scan | audio | aux0 | aux1 | aux2
  deriving DecidableEq, Repr, Inhabited

/-- The two subtitle lanes (7.5). -/
inductive LaneId where
  | a | b
  deriving DecidableEq, Repr, Inhabited

/-- The two kinds of essence a key opens (R58). -/
inductive EssenceKind where
  | picture | sound
  deriving DecidableEq, Repr, Inhabited

/-- The nine fault kinds, in the order of their index (R145). -/
inductive FaultKind where
  | syncLoss | pictureStarved | soundStarved | unitCheck | keyLapsed | watchdog | cueOverrun | access | storeFail
  deriving DecidableEq, Repr, Inhabited

/-- The tables of the management link (Table 11-1). -/
inductive LinkTable where
  | ident | region | key | licence | showing | filter | policy | status | log | events | clock | link
  deriving DecidableEq, Repr, Inhabited

/-- The result codes (Table 11-3). -/
inductive LinkResult where
  | ok | badCrc | badTable | badIndex | badLength | refusedState | refusedValue | busy | keyWrap | storeFailed
  deriving DecidableEq, Repr, Inhabited

/-- The DRAM controller's answer to a forwarded read or a side read (R2). -/
inductive ReadAnswer where
  | data (line : Line)
  | error
  deriving DecidableEq, Repr, Inhabited

/-- The examined contents of a written REGION record (Table 11-13). -/
structure RegionWrite where
  valid : Bool
  kind : Byte
  writers : BitVec 8
  reel : Byte
  base : BitVec 40
  size : BitVec 32
  stride : BitVec 16
  width : BitVec 16
  height : BitVec 16
  pitch : BitVec 16
  limited : Bool
  isProtected : Bool
  deriving DecidableEq, Repr, Inhabited

/-- The examined contents of one reel entry of a written SHOW record (Table 11-16). -/
structure ReelWrite where
  duration : BitVec 24
  pictureRegion : Byte
  soundRegion : Byte
  pictureKey : Byte
  soundKey : Byte
  deriving DecidableEq, Repr, Inhabited

/-- The contents of a written SHOW record (Table 11-16).  Its reel count is the length of `reels`: check 4 of R158 has
found that the packet's length agrees with it. -/
structure ShowWrite where
  compositionId : BitVec 64
  licenceSlot : Byte
  editRate : Byte
  sampleRate : Byte
  channels : Byte
  sync : Byte
  lead : Byte
  trail : Byte
  reels : List ReelWrite
  deriving DecidableEq, Repr, Inhabited

/-- The examined contents of a written filter record (Table 11-17, index 0 to 7). -/
structure FilterWrite where
  enabled : Bool
  action : Byte
  matchValue : BitVec 16
  mask : BitVec 16
  deriving DecidableEq, Repr, Inhabited

/-- The contents of a written POLICY record (Table 11-18): bytes 3 to 5 mean what the index says. -/
structure PolicyWrite where
  policy : Byte
  blank : Byte
  lineFlag : Bool
  byte3 : Byte
  byte4 : Byte
  byte5 : Byte
  deriving DecidableEq, Repr, Inhabited

/-- A command: one row of spec/opcode_table.json each. -/
inductive Instr where
  /-- LINE_READ (R9): a byte address and the originator's tag. -/
  | lineRead (addr : BitVec 40) (who : Originator)
  /-- LINE_WRITE (R14): with 64 data bytes and 64 byte enables. -/
  | lineWrite (addr : BitVec 40) (who : Originator) (data : Line) (enables : BitVec 64)
  /-- READ_RETURN (R12): the downstream answer of the forwarded read of transaction `txn`. -/
  | readReturn (txn : Nat) (ans : ReadAnswer)
  /-- SIDE_READ_RETURN (R13): the downstream answer of the side read made for `lane` by the display read `txn`. -/
  | sideReadReturn (txn : Nat) (lane : LaneId) (ans : ReadAnswer)
  /-- WRITE_COMPLETION (R2): the downstream completion of the forwarded write of transaction `txn`. -/
  | writeCompletion (txn : Nat) (ok : Bool)
  /-- FSYNC_IN_EDGE (R19, R26). -/
  | fsyncInEdge
  /-- WINDOW_EXPIRY (R27). -/
  | windowExpiry
  /-- ANCHOR_TIMEOUT (R25). -/
  | anchorTimeout
  /-- INTERNAL_EXPIRY (R30). -/
  | internalExpiry
  /-- LOAD_SHOW (R39): a WRITE RECORD of the SHOW table. -/
  | loadShow (w : ShowWrite)
  /-- PRIME (R43). -/
  | prime
  /-- PRIME_PREVIEW (R46). -/
  | primePreview
  /-- START (R47). -/
  | start
  /-- HOLD (R48). -/
  | hold
  /-- RESUME (R49). -/
  | resume
  /-- STOP (R53). -/
  | stop
  /-- UNLOAD (R54). -/
  | unload
  /-- REGION_RECORD (R6): a WRITE RECORD of the REGION table. -/
  | regionRecord (index : Fin 24) (w : RegionWrite)
  /-- LOAD_KEY (R61): a WRITE RECORD of the KEY table. -/
  | loadKey (index : Fin 16) (blob : Blob) (check : BitVec 32)
  /-- PURGE_KEY (R62). -/
  | purgeKey (index : Fin 16)
  /-- KEY_EXPIRY (R63): the expiry event of one slot. -/
  | keyExpiry (index : Fin 16)
  /-- SECURE_TICK (R65). -/
  | secureTick
  /-- TRIM_YEAR_CLOSE (R69). -/
  | trimYearClose
  /-- SET_TIME (R67). -/
  | setTime (t : BitVec 32)
  /-- TRIM_TIME (R68): a signed delta, two's complement. -/
  | trimTime (d : BitVec 16)
  /-- LOAD_LICENCE (R131): a WRITE RECORD of the LICENCE table. -/
  | loadLicence (index : Fin 8) (blob : Blob) (check : BitVec 32)
  /-- DELETE_LICENCE (R133). -/
  | deleteLicence (index : Fin 8)
  /-- POP_LOG (R138). -/
  | popLog (seq : BitVec 64)
  /-- SET_SCREEN (R143). -/
  | setScreen (id : BitVec 16)
  /-- STORE_WRITE_COMPLETION (R139). -/
  | storeWriteCompletion
  /-- STORE_WRITE_FAILURE (R140). -/
  | storeWriteFailure
  /-- CLEAR_FAULTS (R152): bit i names kind index i. -/
  | clearFaults (mask : BitVec 16)
  /-- TICKLE (R154). -/
  | tickle
  /-- WD_TICK (R154): a rising edge. -/
  | wdTick
  /-- WATCHDOG_EXPIRY (R154). -/
  | watchdogExpiry
  /-- SET_MUTE (R89): bit c names channel c. -/
  | setMute (mask : BitVec 16)
  /-- LANE_ENABLE (R118): bit 0 lane A, bit 1 lane B. -/
  | laneEnable (bits : Byte)
  /-- ACK_EVENTS (R162): bit e names event e. -/
  | ackEvents (mask : Byte)
  /-- RESET (R161): the link command. -/
  | reset
  /-- BOOTH_RESET (R17): a falling edge of BRST_N; the transfer in progress on the link when it falls, as the number of its bytes
  that the port has acknowledged (R157): none where nothing is said. -/
  | boothReset (midTransfer : Option Nat := none)
  /-- BRST_N_RELEASE (R35): BRST_N returns high. -/
  | brstNRelease
  /-- POWER_ON_RESET (R141, R66, R157): the backup domain's report, whether the Count Store is readable, the straps. -/
  | powerOnReset (supplyHeld : Bool) (storeReadable : Bool) (straps : BitVec 2)
  /-- WRITE_FILTER (R104): FILTER index 0 to 7. -/
  | writeFilter (index : Fin 8) (w : FilterWrite)
  /-- WRITE_DEFAULT_ACTION (R104): FILTER index 8. -/
  | writeDefaultAction (action : Byte)
  /-- WRITE_LOW_MARK (R111): FILTER index 9 (lane A) or 10 (lane B). -/
  | writeLowMark (lane : LaneId) (mark : Byte)
  /-- WRITE_POLICY (R146): POLICY index 0 to 8, named by its kind. -/
  | writePolicy (kind : FaultKind) (w : PolicyWrite)
  /-- WRITE_EVENTS (R163). -/
  | writeEvents (enables : Byte) (selects : Byte)
  /-- WRITE_CLOCK (R21). -/
  | writeClock (window : BitVec 16) (lossLimit : Byte)
  /-- READ_RECORD (R160): a checked READ RECORD packet that names a table. -/
  | readRecord (table : LinkTable) (index : Byte)
  /-- READ_TRANSFER (R160): the master reads `count` bytes after the address byte. -/
  | readTransfer (count : Nat)
  /-- BAD_CRC (R157): the bytes of a whole packet, address byte to CRC byte. -/
  | badCrc (packet : List Byte)
  /-- BAD_LENGTH_TRUNCATED (R157): the bytes staged, address byte first, when the transfer ended. -/
  | badLengthTruncated (staged : List Byte)
  /-- UNRECOGNISED_PACKET (R158): the op, table and index bytes and the data of a packet whose CRC has checked. -/
  | unrecognisedPacket (op : Byte) (table : Byte) (index : Byte) (data : List Byte)
  /-- LOSS_OF_POWER (R141): the main supply is lost; whether the backup supply fails as well (R66). -/
  | lossOfPower (backupFails : Bool)
  deriving DecidableEq, Repr

end Sys2Proof
end

