-- ==== Sys2Proof/Decode.lean ====
section
/-! DEFINITION. Decode.lean: reading a command.  No row of spec/opcode_table.json gives bits, so `decodeTableWord` answers
none.  The packets of the management link have an encoding of their own (R157, R158, Tables 11-1, 11-2, 11-11, 11-13,
11-16 to 11-18, 11-20, 11-21): `decodePacket` reads one, and `encodePacket` writes one. -/

namespace Sys2Proof

/-- The command a word spells by the table's bits: the table gives none of its rows any. -/
def decodeTableWord (_nbits _w : Nat) : Option Instr := none

/-! ### Bytes and CRC-8 -/

/-- One shift of the CRC-8 register toward its high-order end (R101). -/
def crc8Shift (x : Byte) : Byte :=
  if x.msb then (x <<< 1) ^^^ 7#8 else x <<< 1

/-- One byte into the CRC-8 register (R101). -/
def crc8Step (r b : Byte) : Byte :=
  crc8Shift (crc8Shift (crc8Shift (crc8Shift (crc8Shift (crc8Shift (crc8Shift (crc8Shift (r ^^^ b))))))))

/-- The CRC-8 of a list of bytes, the register starting at zero (R101). -/
def crc8 (bs : List Byte) : Byte :=
  bs.foldl crc8Step 0#8

/-- The `n` bytes of `v`, most significant byte first (R165, formats of the link). -/
def beBytes : Nat → Nat → List Byte
  | 0, _ => []
  | n + 1, v => BitVec.ofNat 8 (v / 256 ^ n) :: beBytes n v

/-- The number that bytes spell, most significant byte first. -/
def beNat (bs : List Byte) : Nat :=
  bs.foldl (fun acc b => acc * 256 + b.toNat) 0

/-- The number at bytes `off` to `off + len - 1` of a record. -/
def fieldAt (data : List Byte) (off len : Nat) : Nat :=
  beNat ((data.drop off).take len)

/-- Byte `i` of a record. -/
def byteAt (data : List Byte) (i : Nat) : Byte :=
  data.getD i 0#8

/-- A flag as a byte: bit 0. -/
def flagByte (b : Bool) : Byte :=
  if b then 1#8 else 0#8

/-! ### Tables and commands of the link -/

/-- The op byte (Table 11-11). -/
inductive LinkOp where
  | writeRecord | readRecord | command
  deriving DecidableEq, Repr

/-- The op an op byte names. -/
def linkOpOf (b : Byte) : Option LinkOp :=
  match b.toNat with
  | 1 => some .writeRecord
  | 2 => some .readRecord
  | 3 => some .command
  | _ => none

/-- The number of a table (Table 11-1). -/
def tableNumber : LinkTable → Nat
  | .ident => 0 | .region => 1 | .key => 2 | .licence => 3 | .showing => 4 | .filter => 5
  | .policy => 6 | .status => 7 | .log => 8 | .events => 9 | .clock => 10 | .link => 11

/-- The table a table byte names (Table 11-1). -/
def tableOf (b : Byte) : Option LinkTable :=
  match b.toNat with
  | 0 => some .ident | 1 => some .region | 2 => some .key | 3 => some .licence | 4 => some .showing | 5 => some .filter
  | 6 => some .policy | 7 => some .status | 8 => some .log | 9 => some .events | 10 => some .clock | 11 => some .link
  | _ => none

/-- Whether a table is writable (Table 11-1). -/
def tableWritable : LinkTable → Bool
  | .ident | .status | .log | .link => false
  | .region | .key | .licence | .showing | .filter | .policy | .events | .clock => true

/-- How many indexes a table has (Table 11-1). -/
def tableIndexes : LinkTable → Nat
  | .region => 24 | .key => 16 | .licence => 8 | .filter => 11 | .policy => 9 | .log => 64
  | .ident | .showing | .status | .events | .clock | .link => 1

/-- Check 4 of R158 for a WRITE RECORD: the length equals the table's write length.  For a SHOW record the write length is
taken from the reel count in byte 15, and a record shorter than its first part fails. -/
def writeLengthOk (t : LinkTable) (index : Byte) (data : List Byte) : Bool :=
  match t with
  | .region => data.length == 32
  | .key | .licence => data.length == 52
  | .showing => decide (16 ≤ data.length) && data.length == 16 + 8 * (byteAt data 15).toNat
  | .filter => data.length == if index.toNat < 8 then 8 else if index.toNat = 8 then 24 else 48
  | .policy => data.length == 8
  | .events => data.length == 4
  | .clock => data.length == 64
  | .ident | .status | .log | .link => false

/-- A command's number of indexes and its argument length in bytes, by its code (Table 11-2). -/
def commandShape (code : Byte) : Option (Nat × Nat) :=
  match code.toNat with
  | 1 | 2 | 3 | 4 | 5 | 6 | 7 | 9 | 19 => some (1, 0)
  | 8 | 10 | 16 | 17 => some (1, 2)
  | 11 | 18 => some (1, 1)
  | 12 => some (16, 0)
  | 13 => some (8, 0)
  | 14 => some (1, 8)
  | 15 => some (1, 4)
  | _ => none

/-- The checks of R158, in order: the result with which dispatch refuses the request, or none when it passes. -/
def linkRefusal (op table index : Byte) (data : List Byte) : Option LinkResult :=
  match linkOpOf op with
  | none => some .badTable
  | some .writeRecord =>
    match tableOf table with
    | none => some .badTable
    | some t =>
      if !tableWritable t then some .badTable
      else if tableIndexes t ≤ index.toNat then some .badIndex
      else if writeLengthOk t index data then none else some .badLength
  | some .readRecord =>
    match tableOf table with
    | none => some .badTable
    | some t =>
      if tableIndexes t ≤ index.toNat then some .badIndex
      else if data.length = 0 then none else some .badLength
  | some .command =>
    match commandShape table with
    | none => some .badTable
    | some (indexes, args) =>
      if indexes ≤ index.toNat then some .badIndex
      else if data.length = args then none else some .badLength

/-! ### Reading the data of a request -/

/-- The reel entries of a SHOW record, from its byte 16 on (Table 11-16). -/
def readReels : Nat → List Byte → List ReelWrite
  | 0, _ => []
  | n + 1, data =>
    { duration := BitVec.ofNat 24 (fieldAt data 0 3), pictureRegion := byteAt data 3, soundRegion := byteAt data 4,
      pictureKey := byteAt data 5, soundKey := byteAt data 6 } :: readReels n (data.drop 8)

/-- A SHOW record (Table 11-16). -/
def readShow (data : List Byte) : ShowWrite where
  compositionId := BitVec.ofNat 64 (fieldAt data 0 8)
  licenceSlot := byteAt data 8
  editRate := byteAt data 9
  sampleRate := byteAt data 10
  channels := byteAt data 11
  sync := byteAt data 12
  lead := byteAt data 13
  trail := byteAt data 14
  reels := readReels (byteAt data 15).toNat (data.drop 16)

/-- A REGION record (Table 11-13). -/
def readRegion (data : List Byte) : RegionWrite where
  valid := (byteAt data 0).getLsbD 0
  kind := byteAt data 1
  writers := byteAt data 2
  reel := byteAt data 3
  base := BitVec.ofNat 40 (fieldAt data 4 5)
  size := BitVec.ofNat 32 (fieldAt data 9 4)
  stride := BitVec.ofNat 16 (fieldAt data 13 2)
  width := BitVec.ofNat 16 (fieldAt data 15 2)
  height := BitVec.ofNat 16 (fieldAt data 17 2)
  pitch := BitVec.ofNat 16 (fieldAt data 19 2)
  limited := (byteAt data 21).getLsbD 0
  isProtected := (byteAt data 22).getLsbD 0

/-- A filter record (Table 11-17, index 0 to 7). -/
def readFilter (data : List Byte) : FilterWrite where
  enabled := (byteAt data 0).getLsbD 0
  action := byteAt data 1
  matchValue := BitVec.ofNat 16 (fieldAt data 2 2)
  mask := BitVec.ofNat 16 (fieldAt data 4 2)

/-- A POLICY record (Table 11-18). -/
def readPolicy (data : List Byte) : PolicyWrite where
  policy := byteAt data 0
  blank := byteAt data 1
  lineFlag := (byteAt data 2).getLsbD 0
  byte3 := byteAt data 3
  byte4 := byteAt data 4
  byte5 := byteAt data 5

/-- The fault kind of an index (R145). -/
def faultKindOf : Nat → Option FaultKind
  | 0 => some .syncLoss | 1 => some .pictureStarved | 2 => some .soundStarved | 3 => some .unitCheck
  | 4 => some .keyLapsed | 5 => some .watchdog | 6 => some .cueOverrun | 7 => some .access | 8 => some .storeFail
  | _ => none

/-- The index of a fault kind (R145). -/
def faultIndex : FaultKind → Fin 9
  | .syncLoss => 0 | .pictureStarved => 1 | .soundStarved => 2 | .unitCheck => 3 | .keyLapsed => 4
  | .watchdog => 5 | .cueOverrun => 6 | .access => 7 | .storeFail => 8

/-- The blob of a KEY or LICENCE write: its first 48 bytes. -/
def readBlob (data : List Byte) : Blob :=
  BitVec.ofNat 384 (fieldAt data 0 48)

/-- The check value of a KEY or LICENCE write: the four bytes after the blob. -/
def readCheck (data : List Byte) : BitVec 32 :=
  BitVec.ofNat 32 (fieldAt data 48 4)

/-- The command that a WRITE RECORD of a table is. -/
def writeRequest (t : LinkTable) (index : Byte) (data : List Byte) : Option Instr :=
  match t with
  | .region => if h : index.toNat < 24 then some (.regionRecord ⟨index.toNat, h⟩ (readRegion data)) else none
  | .key => if h : index.toNat < 16 then some (.loadKey ⟨index.toNat, h⟩ (readBlob data) (readCheck data)) else none
  | .licence => if h : index.toNat < 8 then some (.loadLicence ⟨index.toNat, h⟩ (readBlob data) (readCheck data)) else none
  | .showing => some (.loadShow (readShow data))
  | .filter =>
    if h : index.toNat < 8 then some (.writeFilter ⟨index.toNat, h⟩ (readFilter data))
    else if index.toNat = 8 then some (.writeDefaultAction (byteAt data 0))
    else some (.writeLowMark (if index.toNat = 9 then .a else .b) (byteAt data 0))
  | .policy => (faultKindOf index.toNat).map fun k => .writePolicy k (readPolicy data)
  | .events => some (.writeEvents (byteAt data 1) (byteAt data 2))
  | .clock => some (.writeClock (BitVec.ofNat 16 (fieldAt data 23 2)) (byteAt data 25))
  | .ident | .status | .log | .link => none

/-- The command that a COMMAND packet is (Table 11-2). -/
def commandRequest (code index : Byte) (data : List Byte) : Option Instr :=
  match code.toNat with
  | 1 => some .prime
  | 2 => some .primePreview
  | 3 => some .start
  | 4 => some .hold
  | 5 => some .resume
  | 6 => some .stop
  | 7 => some .unload
  | 8 => some (.clearFaults (BitVec.ofNat 16 (fieldAt data 0 2)))
  | 9 => some .tickle
  | 10 => some (.setMute (BitVec.ofNat 16 (fieldAt data 0 2)))
  | 11 => some (.laneEnable (byteAt data 0))
  | 12 => if h : index.toNat < 16 then some (.purgeKey ⟨index.toNat, h⟩) else none
  | 13 => if h : index.toNat < 8 then some (.deleteLicence ⟨index.toNat, h⟩) else none
  | 14 => some (.popLog (BitVec.ofNat 64 (fieldAt data 0 8)))
  | 15 => some (.setTime (BitVec.ofNat 32 (fieldAt data 0 4)))
  | 16 => some (.trimTime (BitVec.ofNat 16 (fieldAt data 0 2)))
  | 17 => some (.setScreen (BitVec.ofNat 16 (fieldAt data 0 2)))
  | 18 => some (.ackEvents (byteAt data 0))
  | 19 => some .reset
  | _ => none

/-- The command that a request which passes R158 is. -/
def linkRequest (op table index : Byte) (data : List Byte) : Option Instr :=
  match linkOpOf op with
  | some .writeRecord => (tableOf table).bind fun t => writeRequest t index data
  | some .readRecord => (tableOf table).map fun t => .readRecord t index
  | some .command => commandRequest table index data
  | none => none

/-! ### Packets -/

/-- The address byte of a write transfer to a part of these straps: 58 (hex) plus the straps, and bit 0 clear (R157). -/
def writeAddress (straps : BitVec 2) : Byte := BitVec.ofNat 8 (2 * (88 + straps.toNat))

/-- The transfer's address byte names the part, for writing (R157). -/
def addressedTo (straps : BitVec 2) (bytes : List Byte) : Bool := bytes.head? == some (writeAddress straps)

/-- How the port reads the bytes of a transfer, address byte first (R157, R158). -/
inductive PacketReading where
  /-- Its address byte is another part's, or bit 0 asks to read: the port stages nothing of it. -/
  | ignored
  /-- The transfer ended before its CRC byte. -/
  | truncated
  /-- The CRC byte does not check. -/
  | badCrc
  /-- Dispatch refuses it under R158. -/
  | refused (r : LinkResult)
  /-- It is this command. -/
  | request (i : Instr)
  deriving DecidableEq, Repr

/-- The address byte of a read transfer from a part of these straps: bit 0 is set (R157). -/
def readAddress (straps : BitVec 2) : Byte := BitVec.ofNat 8 (2 * (88 + straps.toNat) + 1)

/-- The bytes of a packet with so many data bytes: address, op, table, index and length byte, the data, the CRC byte
(Table 11-11). -/
def packetLength (data : Nat) : Nat := 6 + data

/-- How many bytes of a transfer the port of a part of these straps acknowledges, address byte first (R157): of a write to its own
address every byte up to the CRC byte, that one included, and none after it; of a read from it the address byte, the master
acknowledging the rest; of a transfer to another address none. -/
def ackedBytes (straps : BitVec 2) (bytes : List Byte) : Nat :=
  if addressedTo straps bytes then Nat.min bytes.length (packetLength (byteAt bytes 4).toNat)
  else if bytes.head? == some (readAddress straps) then 1
  else 0

/-- The transfer reaches its CRC byte: the address byte, four header bytes, the data the length byte states, the CRC. -/
def packetWhole (bytes : List Byte) : Bool :=
  decide (5 ≤ bytes.length) && decide (6 + (byteAt bytes 4).toNat ≤ bytes.length)

/-- The bytes before the CRC byte, the address byte included (R157). -/
def packetBody (bytes : List Byte) : List Byte :=
  bytes.take (5 + (byteAt bytes 4).toNat)

/-- The CRC byte equals the CRC-8 of every byte before it (R157). -/
def packetCrcOk (bytes : List Byte) : Bool :=
  crc8 (packetBody bytes) == byteAt bytes (5 + (byteAt bytes 4).toNat)

/-- The data field of a packet. -/
def packetData (bytes : List Byte) : List Byte :=
  (packetBody bytes).drop 5

/-- How a part of these straps reads a transfer's bytes.  Bytes after the CRC byte have no effect (R157). -/
def decodePacket (straps : BitVec 2) (bytes : List Byte) : PacketReading :=
  if !addressedTo straps bytes then .ignored
  else if !packetWhole bytes then .truncated
  else if !packetCrcOk bytes then .badCrc
  else
    match linkRefusal (byteAt bytes 1) (byteAt bytes 2) (byteAt bytes 3) (packetData bytes) with
    | some r => .refused r
    | none =>
      match linkRequest (byteAt bytes 1) (byteAt bytes 2) (byteAt bytes 3) (packetData bytes) with
      | some i => .request i
      | none => .refused .badTable

/-! ### Writing a packet -/

/-- A reel entry of a SHOW record (Table 11-16). -/
def reelBytes (r : ReelWrite) : List Byte :=
  beBytes 3 r.duration.toNat ++ [r.pictureRegion, r.soundRegion, r.pictureKey, r.soundKey, 0#8]

/-- The data of a SHOW write (Table 11-16). -/
def showWriteBytes (w : ShowWrite) : List Byte :=
  beBytes 8 w.compositionId.toNat ++
    [w.licenceSlot, w.editRate, w.sampleRate, w.channels, w.sync, w.lead, w.trail, BitVec.ofNat 8 w.reels.length] ++
    w.reels.flatMap reelBytes

/-- The data of a REGION write (Table 11-13). -/
def regionWriteBytes (w : RegionWrite) : List Byte :=
  [flagByte w.valid, w.kind, w.writers, w.reel] ++ beBytes 5 w.base.toNat ++ beBytes 4 w.size.toNat ++
    beBytes 2 w.stride.toNat ++ beBytes 2 w.width.toNat ++ beBytes 2 w.height.toNat ++ beBytes 2 w.pitch.toNat ++
    [flagByte w.limited, flagByte w.isProtected] ++ List.replicate 9 0#8

/-- The data of a filter write (Table 11-17). -/
def filterWriteBytes (w : FilterWrite) : List Byte :=
  [flagByte w.enabled, w.action] ++ beBytes 2 w.matchValue.toNat ++ beBytes 2 w.mask.toNat ++ [0#8, 0#8]

/-- The data of a POLICY write (Table 11-18). -/
def policyWriteBytes (w : PolicyWrite) : List Byte :=
  [w.policy, w.blank, flagByte w.lineFlag, w.byte3, w.byte4, w.byte5, 0#8, 0#8]

/-- The op, table and index bytes and the data of the packet that a command is; none for a command that is no packet. -/
def encodeRequest : Instr → Option (Nat × Nat × Nat × List Byte)
  | .regionRecord i w => some (1, 1, i.val, regionWriteBytes w)
  | .loadKey i blob check => some (1, 2, i.val, beBytes 48 blob.toNat ++ beBytes 4 check.toNat)
  | .loadLicence i blob check => some (1, 3, i.val, beBytes 48 blob.toNat ++ beBytes 4 check.toNat)
  | .loadShow w => some (1, 4, 0, showWriteBytes w)
  | .writeFilter i w => some (1, 5, i.val, filterWriteBytes w)
  | .writeDefaultAction a => some (1, 5, 8, a :: List.replicate 23 0#8)
  | .writeLowMark .a m => some (1, 5, 9, m :: List.replicate 47 0#8)
  | .writeLowMark .b m => some (1, 5, 10, m :: List.replicate 47 0#8)
  | .writePolicy k w => some (1, 6, (faultIndex k).val, policyWriteBytes w)
  | .writeEvents e l => some (1, 9, 0, [0#8, e, l, 0#8])
  | .writeClock w l => some (1, 10, 0, List.replicate 23 0#8 ++ beBytes 2 w.toNat ++ [l] ++ List.replicate 38 0#8)
  | .readRecord t i => some (2, tableNumber t, i.toNat, [])
  | .prime => some (3, 1, 0, [])
  | .primePreview => some (3, 2, 0, [])
  | .start => some (3, 3, 0, [])
  | .hold => some (3, 4, 0, [])
  | .resume => some (3, 5, 0, [])
  | .stop => some (3, 6, 0, [])
  | .unload => some (3, 7, 0, [])
  | .clearFaults m => some (3, 8, 0, beBytes 2 m.toNat)
  | .tickle => some (3, 9, 0, [])
  | .setMute m => some (3, 10, 0, beBytes 2 m.toNat)
  | .laneEnable b => some (3, 11, 0, [b])
  | .purgeKey i => some (3, 12, i.val, [])
  | .deleteLicence i => some (3, 13, i.val, [])
  | .popLog n => some (3, 14, 0, beBytes 8 n.toNat)
  | .setTime t => some (3, 15, 0, beBytes 4 t.toNat)
  | .trimTime d => some (3, 16, 0, beBytes 2 d.toNat)
  | .setScreen v => some (3, 17, 0, beBytes 2 v.toNat)
  | .ackEvents m => some (3, 18, 0, [m])
  | .reset => some (3, 19, 0, [])
  | .lineRead _ _ | .lineWrite _ _ _ _ | .readReturn _ _ | .sideReadReturn _ _ _ | .writeCompletion _ _ | .fsyncInEdge
  | .windowExpiry | .anchorTimeout | .internalExpiry | .keyExpiry _ | .secureTick | .trimYearClose
  | .storeWriteCompletion | .storeWriteFailure | .wdTick | .watchdogExpiry | .boothReset _ | .brstNRelease
  | .powerOnReset _ _ _ | .readTransfer _ | .badCrc _ | .badLengthTruncated _ | .unrecognisedPacket _ _ _ _
  | .lossOfPower _ => none

/-- The whole packet of a link request, to the part of these straps (Table 11-11). -/
def encodePacket (straps : BitVec 2) (i : Instr) : Option (List Byte) :=
  (encodeRequest i).map fun (op, table, index, data) =>
    let body := [writeAddress straps, BitVec.ofNat 8 op, BitVec.ofNat 8 table, BitVec.ofNat 8 index, BitVec.ofNat 8 data.length] ++ data
    body ++ [crc8 body]

end Sys2Proof
end

