-- ==== Sys2Proof/Config.lean ====
section
/-! DEFINITION. Config.lean: what the manual specifies by its inputs and outputs alone, and the free values.
Each is a constant with no body, so no proof can rest on a value of it. -/

namespace Sys2Proof

/-- What the unwrap function yields from a key blob (R60): the plain key fields and the computed check value.  `kind` is
absent when the kind code is neither PICTURE nor SOUND. -/
structure PlainKey where
  kind : Option EssenceKind
  keyId : BitVec 64
  nonce : BitVec 64
  material : BitVec 128
  notBefore : BitVec 32
  notAfter : BitVec 32
  check : BitVec 32
  deriving DecidableEq, Repr, Inhabited

/-- What the unwrap function yields from a licence blob (9.2): the licence fields and the computed check value.  The
widths in which `granted` and `permille` are carried are not stated, so they are whole numbers here (log 13). -/
structure PlainLicence where
  licenceId : BitVec 32
  compositionId : BitVec 64
  granted : Nat
  notBefore : BitVec 32
  notAfter : BitVec 32
  permille : Nat
  screenId : BitVec 16
  check : BitVec 32
  deriving DecidableEq, Repr, Inhabited

namespace Config

/-- The unwrap function on a key blob, under the device key fixed in the part (R60, 4.2; log 13). -/
opaque unwrapKey : Blob → PlainKey

/-- The unwrap function on a licence blob (9.2; log 13). -/
opaque unwrapLicence : Blob → PlainLicence

/-- The block function (R75): the content key and a 16-byte counter block give 16 bytes, byte 0 of a block being its
least significant byte (log 12). -/
opaque blockFunction : BitVec 128 → BitVec 128 → BitVec 128

/-- Free value: the order in which the blocks react to an advance, a code that `Machine.shuffle` turns into a
permutation; the argument is `State.free` (R31, R134, R150; log 7). -/
opaque advanceOrder : Nat → Nat

/-- Free value: whether the watchdog's expiry is taken before the Show Clock's when both fall due in one microsecond; the
argument is `State.free` (log 4). -/
opaque watchdogFirst : Nat → Bool

/-- Free value: whether the Count Unit took the failure of a write before the commit of the same microsecond, so that the
commit found the store FAILED; the argument is `State.free` (R144; log 30). -/
opaque failureFirst : Nat → Bool

/-- Free value: whether a cue whose in unit is T is due at the final advance, as R109 has it, or stays queued, as R102 has it; the
argument is `State.free` (log 28). -/
opaque finalActivation : Nat → Bool

/-- Free value: whether a cue line that Cue Intake takes after a booth reset of the same microsecond passes check 5 on the planes
that stood before the reset, as R115 has it, or fails it on the emptied table, as R100 has it; the argument is `State.free`
(log 29). -/
opaque checkBeforeReset : Nat → Bool

/-- Every 32-bit count of the part stops here (00_scope.md 0.6, Counters). -/
def max32 : Nat := 4294967295

/-- Every 16-bit count stops here. -/
def max16 : Nat := 65535

/-- Every 8-bit count stops here. -/
def max8 : Nat := 255

/-- The unit count k stops here (R20). -/
def maxUnit : Nat := 16777215

/-- Ticks in a trim year (R69). -/
def trimYear : Nat := 31536000

end Config

end Sys2Proof
end

