-- ==== Sys2Proof/Machine/State.lean ====
section
/-! DEFINITION. Machine/State.lean: everything the spec gives the RB640 to hold, as plain data, and the state after reset.
A field's docstring names the rule that gives it; INVENTORY.md lists them all with their reset values. -/

namespace Sys2Proof.Machine

/-- No command of this part ends in a fault: a fault kind of the manual is state (R145), not a stop.  So no constructor. -/
inductive Fault where
  deriving DecidableEq, Repr

/-- Why a command has no meaning. -/
inductive Refusal where
  /-- Raised by exec's arm of a command that has no meaning yet; safe.  No arm does so. -/
  | notModelled (mnemonic : String)
  deriving DecidableEq, Repr

/-! ### Memory path (chapter 1) -/

/-- What a region holds (R3). -/
inductive RegionKind where
  | openMemory | pictureEssence | soundEssence | frame | plane | cue
  deriving DecidableEq, Repr, Inhabited

/-- Component range of a stored picture (R3). -/
inductive PixelRange where
  | full | limited
  deriving DecidableEq, Repr, Inhabited

/-- A Region Table entry (R3).  The defaults are its reset values (R5). -/
structure RegionEntry where
  valid : Bool := false
  base : Nat := 0
  size : Nat := 0
  kind : RegionKind := .openMemory
  writers : BitVec 8 := 0#8
  reel : Nat := 0
  stride : Nat := 0
  width : Nat := 0
  height : Nat := 0
  pitch : Nat := 0
  range : PixelRange := .full
  isProtected : Bool := false
  deriving DecidableEq, Repr, Inhabited

/-- What classification binds to a transaction at its arrival (R4): a copy of the matching entry's fields and the line
offset.  `entry` is absent for an address that no VALID entry matches. -/
structure Binding where
  entry : Option (Fin 24)
  kind : RegionKind
  offset : Nat
  writers : BitVec 8
  reel : Nat
  stride : Nat
  width : Nat
  height : Nat
  pitch : Nat
  range : PixelRange
  isProtected : Bool
  deriving DecidableEq, Repr, Inhabited

/-- The routes of forwarded reads (Table 1-1). -/
inductive Route where
  | plain | raw | picture | sound | display
  deriving DecidableEq, Repr, Inhabited

/-- A draw entry (R119): the lane and a copy of its active cue's drawing fields. -/
structure DrawEntry where
  lane : LaneId
  number : Nat
  inUnit : Nat
  x0 : Nat
  y0 : Nat
  w : Nat
  h : Nat
  plane : Fin 24
  px : Nat
  py : Nat
  deriving DecidableEq, Repr, Inhabited

/-- How a side read stands (R13, R120): awaited, returned with data, or failed (an error, or not sent). -/
inductive SideStatus where
  | awaited
  | data (line : Line)
  | failed
  deriving DecidableEq, Repr, Inhabited

/-- A draw entry with the side read made for it (R13, R119). -/
structure SideRead where
  entry : DrawEntry
  status : SideStatus
  deriving DecidableEq, Repr, Inhabited

/-- A forwarded read in flight (R1, R2, R12, R13).  `frame` is a display read's own data, once it has returned. -/
structure ReadInFlight where
  txn : Nat
  line : Nat
  who : Originator
  binding : Binding
  route : Route
  frame : Option Line
  sides : List SideRead
  deriving DecidableEq, Repr, Inhabited

/-- A forwarded write in flight, with the data bytes and byte enables kept from its arrival (R15). -/
structure WriteInFlight where
  txn : Nat
  line : Nat
  who : Originator
  binding : Binding
  data : Line
  enables : BitVec 64
  deriving DecidableEq, Repr, Inhabited

/-- Cause of an access record (R16). -/
inductive AccessCause where
  | writeRefused | protectedRead
  deriving DecidableEq, Repr, Inhabited

/-- A full access record (R16). -/
structure AccessRecord where
  cause : AccessCause
  who : Originator
  region : Option (Fin 24)
  line : Nat
  further : Nat
  deriving DecidableEq, Repr, Inhabited

/-- The Path Classifier's state. -/
structure Path where
  /-- Region Table (R3, R5). -/
  regions : Vector RegionEntry 24 := Vector.replicate 24 {}
  /-- Raw picture count (R10). -/
  rawPicture : Nat := 0
  /-- Raw sound count (R10). -/
  rawSound : Nat := 0
  /-- Access record, empty or full (R16). -/
  access : Option AccessRecord := none
  /-- Reads in flight (R1). -/
  reads : List ReadInFlight := []
  /-- Writes in flight (R1, R15). -/
  writes : List WriteInFlight := []
  /-- The model's own: the number of the next transaction (log 11). -/
  nextTxn : Nat := 0
  /-- The model's own: the entries that were planes when a booth reset of this microsecond emptied the table (R115; log 29). -/
  planesLost : List (Fin 24) := []
  deriving DecidableEq, Repr, Inhabited

/-! ### Show Clock (chapter 2) -/

/-- Sub-states of the Show Clock (2.3). -/
inductive Substate where
  | idle | awaitingAnchor | tracking
  deriving DecidableEq, Repr, Inhabited

/-- The Show Clock's state; the defaults are R35's values. -/
structure Clock where
  timebase : Time := 0#48
  substate : Substate := .idle
  /-- Anchor a (R20). -/
  anchor : Time := 0#48
  /-- Unit count k (R20). -/
  unitCount : Nat := 0
  /-- Expected time E as last computed (2.8). -/
  expected : Time := 0#48
  /-- Anchor deadline, while one is set (R23, R25). -/
  anchorDeadline : Option Time := none
  /-- Window half-width W (R21). -/
  window : Nat := 1000
  /-- Loss limit L (R21). -/
  lossLimit : Nat := 3
  edges : Nat := 0
  accepted : Nat := 0
  glitches : Nat := 0
  missed : Nat := 0
  consecutive : Nat := 0
  lastAccepted : Option Time := none
  /-- Measured period (R29). -/
  period : Nat := 0
  /-- Measured span (R29). -/
  span : Nat := 0
  /-- The SYNC_LOSS condition (R28). -/
  syncLoss : Bool := false
  /-- An edge of FSYNC_IN was seen in this microsecond (R19; log 25). -/
  edgeSeen : Bool := false
  deriving DecidableEq, Repr, Inhabited

/-! ### Show Controller (chapter 3) -/

/-- The seven edit rates (Table 2-1). -/
inductive EditRate where
  | r24 | r25 | r30 | r48 | r50 | r60 | r24000over1001
  deriving DecidableEq, Repr, Inhabited

/-- The two sample rates (R37). -/
inductive SampleRate where
  | hz48000 | hz96000
  deriving DecidableEq, Repr, Inhabited

/-- What paces the show (R37). -/
inductive SyncSource where
  | projector | internal
  deriving DecidableEq, Repr, Inhabited

/-- One reel of the Show Record (R37). -/
structure Reel where
  duration : Nat
  pictureRegion : Fin 24
  soundRegion : Fin 24
  pictureKey : Fin 16
  soundKey : Fin 16
  deriving DecidableEq, Repr, Inhabited

/-- The Show Record as stored, with lead and trail resolved (R37, R40). -/
structure ShowRecord where
  compositionId : BitVec 64
  licenceSlot : Fin 8
  editRate : EditRate
  sampleRate : SampleRate
  channels : Nat
  sync : SyncSource
  lead : Nat
  trail : Nat
  reels : List Reel
  deriving DecidableEq, Repr, Inhabited

/-- The six show states (Table 3-1). -/
inductive ShowState where
  | empty | loaded | primed | running | held | ended
  deriving DecidableEq, Repr, Inhabited

/-- The mark of a show (R41). -/
inductive Mark where
  | none | full | preview
  deriving DecidableEq, Repr, Inhabited

/-- The Show Controller's state; the defaults are R41's values. -/
structure Controller where
  state : ShowState := .empty
  mark : Mark := .none
  record : Option ShowRecord := none
  /-- Show position p. -/
  position : Nat := 0
  committed : Bool := false
  /-- Commit unit C (R44, R134). -/
  commitUnit : Nat := 0
  /-- The KEY_LAPSED condition (R51). -/
  keyLapsed : Bool := false
  deriving DecidableEq, Repr, Inhabited

/-! ### Key Table and Secure Clock (chapter 4) -/

/-- The fields of a key slot that is not EMPTY (R58), less the material and the grace reel. -/
structure KeyFields where
  kind : EssenceKind
  keyId : BitVec 64
  nonce : BitVec 64
  notBefore : Nat
  notAfter : Nat
  deriving DecidableEq, Repr, Inhabited

/-- A key slot (R58): its state decides which fields are present. -/
inductive KeySlot where
  | empty
  | loaded (f : KeyFields) (material : BitVec 128)
  | inUse (f : KeyFields) (material : BitVec 128)
  | lapsed (f : KeyFields) (material : BitVec 128) (graceReel : Nat)
  | expired (f : KeyFields)
  deriving DecidableEq, Repr, Inhabited

/-- The Secure Clock (R65); the defaults are the values of TIME_INVALID. -/
structure SecureClock where
  valid : Bool := false
  time : Nat := 0
  yearOpen : Bool := false
  elapsed : Nat := 0
  trimSum : Int := 0
  deriving DecidableEq, Repr, Inhabited

/-! ### Unpack Engine (chapter 5) -/

/-- Withheld counts of one kind, one for each reason (R74). -/
structure WithheldCounts where
  state : Nat := 0
  outsideReel : Nat := 0
  window : Nat := 0
  key : Nat := 0
  deriving DecidableEq, Repr, Inhabited

/-- A TRACKING unit-check context (R80).  `recent` is the order of its last use relative to the other context. -/
structure UnitContext where
  unit : Nat
  length : Nat
  crc : BitVec 32
  expectedLine : Nat
  register : BitVec 32
  recent : Bool
  deriving DecidableEq, Repr, Inhabited

/-- Cause of a unit-check record (R82). -/
inductive UnitCause where
  | number | length | crc
  deriving DecidableEq, Repr, Inhabited

/-- A full unit-check record (R82). -/
structure UnitCheckRecord where
  cause : UnitCause
  unit : Nat
  reel : Nat
  further : Nat
  deriving DecidableEq, Repr, Inhabited

/-- The Unpack Engine's state; the defaults are its reset values (R74, R81, R82, R84 to R86). -/
structure Unpack where
  withheldPicture : WithheldCounts := {}
  withheldSound : WithheldCounts := {}
  context0 : Option UnitContext := none
  context1 : Option UnitContext := none
  checkedUnits : Nat := 0
  uncheckedUnits : Nat := 0
  unitCheck : Option UnitCheckRecord := none
  /-- Picture frontier (R84). -/
  frontier : Option Nat := none
  /-- Picture-late count (R85). -/
  late : Nat := 0
  /-- Picture-starve limit (R85). -/
  limit : Nat := 2
  /-- The PICTURE_STARVED condition (R85). -/
  starved : Bool := false
  deriving DecidableEq, Repr, Inhabited

/-! ### Sound Stage (chapter 6) -/

/-- The target of a gain ramp (R91): 0 or 32768. -/
inductive RampTarget where
  | silence | unity
  deriving DecidableEq, Repr, Inhabited

/-- The gain ramp record (R91); the defaults are unity as at reset (R99). -/
structure GainRamp where
  startSample : Nat := 0
  startGain : Nat := 32768
  target : RampTarget := .unity
  length : Nat := 960
  deriving DecidableEq, Repr, Inhabited

/-- The Sound Stage's state; the defaults are R99's values. -/
structure Sound where
  pendingMask : BitVec 16 := 0#16
  activeMask : BitVec 16 := 0#16
  ramp : GainRamp := {}
  /-- Ramp length parameter (R92). -/
  rampLength : Nat := 960
  /-- Sound frontier (R96). -/
  frontier : Option Nat := none
  /-- Sound-late count (R97). -/
  late : Nat := 0
  /-- Sound-starve limit (R97). -/
  limit : Nat := 2
  /-- The SOUND_STARVED condition (R97). -/
  starved : Bool := false
  deriving DecidableEq, Repr, Inhabited

/-! ### Cue Intake (chapter 7) -/

/-- A cue as held (R102). -/
structure Cue where
  number : Nat
  track : BitVec 16
  forced : Bool
  inUnit : Nat
  outUnit : Nat
  fadeUp : Nat
  fadeDown : Nat
  x0 : Nat
  y0 : Nat
  w : Nat
  h : Nat
  plane : Fin 24
  px : Nat
  py : Nat
  deriving DecidableEq, Repr, Inhabited

/-- A pending update (R106): an out unit and a fade-down. -/
structure CueUpdate where
  outUnit : Nat
  fadeDown : Nat
  deriving DecidableEq, Repr, Inhabited

/-- An active cue with its pending update, absent or present (R106). -/
structure ActiveCue where
  cue : Cue
  update : Option CueUpdate
  deriving DecidableEq, Repr, Inhabited

/-- What a filter does with a cue it matches (R103). -/
inductive FilterAction where
  | laneA | laneB | reject
  deriving DecidableEq, Repr, Inhabited

/-- A filter (R103); the defaults are R104's reset values. -/
structure Filter where
  enabled : Bool := false
  matchValue : BitVec 16 := 0#16
  mask : BitVec 16 := 0#16
  action : FilterAction := .laneA
  deriving DecidableEq, Repr, Inhabited

/-- The intake counts (R113). -/
structure IntakeCounts where
  taken : Nat := 0
  partialLines : Nat := 0
  malformed : Nat := 0
  rejected : Nat := 0
  ignored : Nat := 0
  deriving DecidableEq, Repr, Inhabited

/-- The lane counts (R113). -/
structure LaneCounts where
  inserted : Nat := 0
  replaced : Nat := 0
  updated : Nat := 0
  late : Nat := 0
  overrun : Nat := 0
  skipped : Nat := 0
  cut : Nat := 0
  retired : Nat := 0
  deriving DecidableEq, Repr, Inhabited

/-- A lane (R106, R111, R113). -/
structure Lane where
  queue : List Cue := []
  active : Option ActiveCue := none
  lowMark : Nat := 4
  counts : LaneCounts := {}
  deriving DecidableEq, Repr, Inhabited

/-- Cue Intake's state; the defaults are R116's values. -/
structure CueIntake where
  filters : Vector Filter 8 := Vector.replicate 8 {}
  defaultAction : FilterAction := .laneA
  counts : IntakeCounts := {}
  laneA : Lane := {}
  laneB : Lane := {}
  deriving DecidableEq, Repr, Inhabited

/-! ### Overlay Unit (chapter 8) -/

/-- The Overlay Unit's state (R127), less the draw entries, which live with their reads. -/
structure Overlay where
  enableA : Bool := true
  enableB : Bool := true
  /-- Side-read failure count (R120). -/
  sideFailures : Nat := 0
  /-- Unmatched count (R122). -/
  unmatched : Nat := 0
  deriving DecidableEq, Repr, Inhabited

/-! ### Count Unit and Count Store (chapter 9) -/

/-- The fields of a licence (R129). -/
structure Licence where
  licenceId : BitVec 32
  compositionId : BitVec 64
  granted : Nat
  remaining : Nat
  used : Nat
  notBefore : Nat
  notAfter : Nat
  permille : Nat
  screenId : BitVec 16
  deriving DecidableEq, Repr, Inhabited

/-- A licence slot (R129). -/
inductive LicenceSlot where
  | empty
  | active (l : Licence)
  | suspended (l : Licence)
  deriving DecidableEq, Repr, Inhabited

/-- The output condition (R148). -/
inductive OutputCondition where
  | openOutput | blankTimed | blankLatched
  deriving DecidableEq, Repr, Inhabited

/-- A Showing Log record (R136). -/
structure LogRecord where
  sequence : Nat
  slot : Fin 8
  licenceId : BitVec 32
  compositionId : BitVec 64
  commitTime : Nat
  duration : Nat
  outputAtCommit : OutputCondition
  blanked : Nat
  deriving DecidableEq, Repr, Inhabited

/-- What the Count Store keeps, and the RAM copy of it (9.1): the licence slots, the Showing Log oldest first, the
sequence counter and the screen id.  The defaults are a store new from manufacture (R136, R143; log 2). -/
structure CountImage where
  licences : Vector LicenceSlot 8 := Vector.replicate 8 .empty
  log : List LogRecord := []
  sequence : Nat := 0
  screenId : BitVec 16 := 65535#16
  deriving DecidableEq, Repr, Inhabited

/-- A write in flight with its image (R139): a link write of a slot, the log or the screen id, or a commit write. -/
inductive StoreWrite where
  | slot (i : Fin 8) (image : LicenceSlot)
  | log (image : List LogRecord)
  | screen (image : BitVec 16)
  | commit (slots : List (Fin 8 × LicenceSlot)) (log : List LogRecord) (sequence : Nat)
  deriving DecidableEq, Repr, Inhabited

/-- The state of the Count Store (R139). -/
inductive StoreStatus where
  | ready
  | busy (w : StoreWrite)
  | failed
  deriving DecidableEq, Repr, Inhabited

/-- The Count Unit's state. -/
structure CountUnit where
  /-- The RAM copy. -/
  ram : CountImage := {}
  /-- The contents of the non-volatile Count Store. -/
  store : CountImage := {}
  status : StoreStatus := .ready
  /-- The waiting commit set (R139). -/
  waiting : List (Fin 8) := []
  /-- The model's own: a commit has joined the waiting set in this microsecond (R144; log 30). -/
  commitSeen : Bool := false
  /-- A reload is owed to a booth reset taken while BUSY (R142). -/
  reloadDue : Bool := false
  /-- The reserved slot (R130). -/
  reserved : Option (Fin 8) := none
  /-- The blanked count (R134). -/
  blanked : Nat := 0
  deriving DecidableEq, Repr, Inhabited

/-! ### Supervisor (chapter 10) -/

/-- The four policies (R147). -/
inductive Policy where
  | ignore | report | timed | latch
  deriving DecidableEq, Repr, Inhabited

/-- A fault table entry (R145), with the kind's membership of the latched set (R148). -/
structure FaultEntry where
  flag : Bool := false
  raises : Nat := 0
  condition : Bool := false
  latched : Bool := false
  deriving DecidableEq, Repr, Inhabited

/-- A policy entry (R146). -/
structure PolicyEntry where
  policy : Policy := .report
  blank : Nat := 24
  lineFlag : Bool := false
  deriving DecidableEq, Repr, Inhabited

/-- The watchdog (R154); the defaults are its reset values. -/
structure Watchdog where
  enabled : Bool := false
  /-- Interval in seconds: 1, 2, 5 or 10. -/
  interval : Nat := 2
  deadline : Option Time := none
  /-- The WATCHDOG condition. -/
  condition : Bool := false
  /-- An edge of WD_TICK was seen in this microsecond (log 25). -/
  tickSeen : Bool := false
  deriving DecidableEq, Repr, Inhabited

/-- The policy table after reset (R145, R146), in index order. -/
def defaultPolicies : Vector PolicyEntry 9 :=
  #v[{ policy := .latch, lineFlag := true }, { policy := .timed }, { policy := .report },
     { policy := .timed }, { policy := .latch, lineFlag := true }, { policy := .ignore },
     { policy := .report }, { policy := .report }, { policy := .latch, lineFlag := true }]

/-- The Supervisor's state; the defaults are R156's values. -/
structure Supervisor where
  faults : Vector FaultEntry 9 := Vector.replicate 9 {}
  policies : Vector PolicyEntry 9 := defaultPolicies
  countdown : Nat := 0
  watchdog : Watchdog := {}
  deriving DecidableEq, Repr, Inhabited

/-! ### Management Link Interface (chapter 11) -/

/-- The snapshot a read transfer delivers (R160): a result code and the record's bytes. -/
structure Snapshot where
  result : LinkResult := .ok
  bytes : List Byte := []
  deriving DecidableEq, Repr, Inhabited

/-- The Management Link Interface's state; the defaults are its reset values (R157, R159, R160, R163). -/
structure Link where
  result : LinkResult := .ok
  detail : Nat := 0
  /-- The applied delta (R159). -/
  delta : Int := 0
  snapshot : Snapshot := {}
  /-- A transfer was in progress when booth reset occurred, and it has not ended: its end is discarded (R157; log 14). -/
  cutOff : Bool := false
  /-- Pending flags of the seven events, bit e event e of Table 11-4 (R162). -/
  eventPending : BitVec 7 := 0#7
  eventEnables : BitVec 7 := 0#7
  /-- Line selects: clear for ATTN_A, set for ATTN_B. -/
  eventSelects : BitVec 7 := 0#7
  deriving DecidableEq, Repr, Inhabited

/-! ### Power, pins, ports -/

/-- The main supply, the backup supply, BRST_N and the address straps. -/
structure Power where
  /-- The main supply is present. -/
  on : Bool := true
  /-- BRST_N is held low. -/
  brstLow : Bool := false
  /-- The backup domain's supply has been held since it last came up (R66). -/
  backupHeld : Bool := true
  /-- ADDR1 ADDR0 as read at power-on (R157). -/
  straps : BitVec 2 := 0#2
  deriving DecidableEq, Repr, Inhabited

/-- A message to the upstream port (R1): a response or completion, matched to its transaction. -/
inductive UpMsg where
  | data (txn : Nat) (line : Line)
  | readError (txn : Nat)
  | writeOk (txn : Nat)
  | writeError (txn : Nat)
  deriving DecidableEq, Repr, Inhabited

/-- A transaction sent to the downstream port (R2, R13).  A side read names the display read and lane it is for; it
carries the tag SCAN. -/
inductive DownMsg where
  | read (txn : Nat) (line : Nat) (who : Originator)
  | sideRead (txn : Nat) (lane : LaneId) (line : Nat)
  | write (txn : Nat) (line : Nat) (who : Originator) (data : Line) (enables : BitVec 64)
  deriving DecidableEq, Repr, Inhabited

/-- What the ports carried at the last command: the model's own field (log 10). -/
structure Outputs where
  up : List UpMsg := []
  down : List DownMsg := []
  /-- Bytes a read transfer delivered on the link (R160). -/
  link : List Byte := []
  /-- How many bytes of the transfer the link port acknowledged, its own address byte included (R157). -/
  acked : Nat := 0
  deriving DecidableEq, Repr, Inhabited

/-- The state of the part.  The defaults are the state after the first power-on reset (log 1). -/
structure State where
  /-- Commands waiting, first in, first out. -/
  pending : List Instr := []
  power : Power := {}
  path : Path := {}
  clock : Clock := {}
  ctl : Controller := {}
  keys : Vector KeySlot 16 := Vector.replicate 16 .empty
  secure : SecureClock := {}
  unpack : Unpack := {}
  sound : Sound := {}
  cues : CueIntake := {}
  overlay : Overlay := {}
  count : CountUnit := {}
  sup : Supervisor := {}
  link : Link := {}
  /-- The model's own: the free values are applied to it (log 7). -/
  free : Nat := 0
  /-- The model's own: the port messages of the last command (log 10). -/
  out : Outputs := {}
  deriving DecidableEq, Repr, Inhabited

/-- The machine right after reset: the first power-on reset of a part new from manufacture whose backup domain has just
come up (log 1, log 2).  Every field has the value its rule gives for power-on reset. -/
def State.reset : State := {}

end Sys2Proof.Machine
end

