-- ==== Sys2Proof/Machine/Operands.lean ====
section
/-! DEFINITION. Machine/Operands.lean: the formats of the memory path (R165), the values the records and blobs carry, and
the arithmetic of single values: show timing (R20, R38), gain (R91), fade and blend (R123 to R125), CRC-32 (R78). -/

namespace Sys2Proof.Machine

/-! ### Counters and tables -/

/-- A counter incremented: it stops at its maximum and does not wrap (00_scope.md 0.6). -/
def satInc (max n : Nat) : Nat := Nat.min (n + 1) max

/-- A counter increased by `k`, stopping at its maximum. -/
def satAdd (max n k : Nat) : Nat := Nat.min (n + k) max

/-- A table with entry `i` replaced. -/
def vput {α : Type} {n : Nat} (v : Vector α n) (i : Fin n) (x : α) : Vector α n :=
  v.set i.val x i.isLt

/-- A table with every entry mapped. -/
def vmap {α β : Type} {n : Nat} (f : α → β) (v : Vector α n) : Vector β n :=
  ⟨⟨v.toList.map f⟩, by simp⟩

/-- The table whose entry `i` is `f i`. -/
def vofFn {α : Type} {n : Nat} (f : Fin n → α) : Vector α n :=
  ⟨⟨(List.finRange n).map f⟩, by simp⟩

/-! ### Tags and codes -/

/-- The 3-bit tag of an originator (00_scope.md 0.6). -/
def originatorTag : Originator → Nat
  | .proc => 0 | .ingest => 1 | .decode => 2 | .scan => 3 | .audio => 4 | .aux0 => 5 | .aux1 => 6 | .aux2 => 7

/-- The region kind of a record's kind byte (Table 11-13); none outside the six. -/
def regionKindOf (b : Byte) : Option RegionKind :=
  match b.toNat with
  | 0 => some .openMemory | 1 => some .pictureEssence | 2 => some .soundEssence
  | 3 => some .frame | 4 => some .plane | 5 => some .cue
  | _ => none

/-- The edit rate of a SHOW record's byte (Table 11-16). -/
def editRateOf (b : Byte) : Option EditRate :=
  match b.toNat with
  | 0 => some .r24 | 1 => some .r25 | 2 => some .r30 | 3 => some .r48 | 4 => some .r50 | 5 => some .r60
  | 6 => some .r24000over1001
  | _ => none

/-- The sample rate of a SHOW record's byte (Table 11-16). -/
def sampleRateOf (b : Byte) : Option SampleRate :=
  match b.toNat with
  | 0 => some .hz48000 | 1 => some .hz96000
  | _ => none

/-- The sync source of a SHOW record's byte (Table 11-16). -/
def syncSourceOf (b : Byte) : Option SyncSource :=
  match b.toNat with
  | 0 => some .projector | 1 => some .internal
  | _ => none

/-- The action of a FILTER record's byte (Table 11-17). -/
def filterActionOf (b : Byte) : Option FilterAction :=
  match b.toNat with
  | 0 => some .laneA | 1 => some .laneB | 2 => some .reject
  | _ => none

/-- The policy of a POLICY record's byte (Table 11-18). -/
def policyOf (b : Byte) : Option Policy :=
  match b.toNat with
  | 0 => some .ignore | 1 => some .report | 2 => some .timed | 3 => some .latch
  | _ => none

/-! ### Show timing (R20, R37, R38) -/

/-- N of the edit rate N/D (Table 2-1). -/
def rateN : EditRate → Nat
  | .r24 => 24 | .r25 => 25 | .r30 => 30 | .r48 => 48 | .r50 => 50 | .r60 => 60 | .r24000over1001 => 24000

/-- D of the edit rate N/D (Table 2-1). -/
def rateD : EditRate → Nat
  | .r24000over1001 => 1001
  | .r24 | .r25 | .r30 | .r48 | .r50 | .r60 => 1

/-- Sound samples per second (R37). -/
def samplesPerSecond : SampleRate → Nat
  | .hz48000 => 48000 | .hz96000 => 96000

/-- The offset of the `units`-th unit from the anchor, floor(units × 1,000,000 × D / N), formed exactly (R20). -/
def unitOffset (r : EditRate) (units : Nat) : Nat := units * 1000000 * rateD r / rateN r

/-- The expected time E of the pulse that follows `k` units after anchor `a` (R20). -/
def expectedTime (r : EditRate) (a : Time) (k : Nat) : Time := a + BitVec.ofNat 48 (unitOffset r (k + 1))

/-- The anchor deadline c + (L + 1) × floor(P) (R23, R25). -/
def deadlineFrom (r : EditRate) (lossLimit : Nat) (c : Time) : Time :=
  c + BitVec.ofNat 48 ((lossLimit + 1) * unitOffset r 1)

/-- x is before y: the signed difference x - y modulo 2^48 is negative (R18). -/
def timeBefore (x y : Time) : Bool := (x - y).msb

/-- The total duration T (R38). -/
def totalDuration (r : ShowRecord) : Nat := (r.reels.map (·.duration)).sum

/-- The reel start offset S_i (R38); 0 beyond the reel count. -/
def reelStart (r : ShowRecord) (i : Nat) : Nat :=
  if i < r.reels.length then ((r.reels.take i).map (·.duration)).sum else 0

/-- Samples per unit, sample rate × D / N (R38). -/
def samplesPerUnit (r : ShowRecord) : Nat :=
  samplesPerSecond r.sampleRate * rateD r.editRate / rateN r.editRate

/-- The number of reels, from `i` on, that a position reaches past the first, by durations (R38). -/
def reelsReached : List Reel → Nat → Nat
  | [], _ => 0
  | [_], _ => 0
  | a :: b :: rest, q => if a.duration ≤ q then 1 + reelsReached (b :: rest) (q - a.duration) else 0

/-- The current reel at position q: the largest r with S_r ≤ q (R38). -/
def currentReel (r : ShowRecord) (q : Nat) : Nat := reelsReached r.reels q

/-- The reel other than reel 0 that starts at position q, if any (R51). -/
def reelEntered (r : ShowRecord) (q : Nat) : Option Reel :=
  if q = 0 then none
  else if reelStart r (currentReel r q) = q then r.reels[currentReel r q]? else none

/-! ### Lines and words (R165) -/

/-- Word `i` of a line. -/
def lineWord (l : Line) (i : Nat) : BitVec 32 := l.extractLsb' (32 * i) 32

/-- The line whose words are these, word 0 first. -/
def lineOfWords : List (BitVec 32) → Line
  | [] => 0#512
  | w :: ws => w.setWidth 512 ||| (lineOfWords ws <<< 32)

/-- The line whose word i, for i from 0 to 15, is `f i`. -/
def lineOfFn (f : Nat → BitVec 32) : Line := lineOfWords ((List.range 16).map f)

/-- Byte `k` of a line. -/
def lineByte (l : Line) (k : Nat) : Byte := l.extractLsb' (8 * k) 8

/-- The first `n` bytes of a line. -/
def lineBytes (l : Line) (n : Nat) : List Byte := (List.range n).map (lineByte l)

/-- The field of `len` bytes at byte `off` of a line, least significant byte first. -/
def lineField (l : Line) (off len : Nat) : Nat := (l.extractLsb' (8 * off) (8 * len)).toNat

/-- The field of `len` bits from bit `lo` of a word, as a number. -/
def wordField (w : BitVec 32) (lo len : Nat) : Nat := (w.extractLsb' lo len).toNat

/-! ### Picture pixels (Tables 11-5, 11-6, R124 to R126) -/

/-- A frame pixel word from its two unused bits and R, G and B (Table 11-5). -/
def pixelWord (unused : BitVec 2) (r g b : Nat) : BitVec 32 :=
  unused ++ BitVec.ofNat 10 r ++ BitVec.ofNat 10 g ++ BitVec.ofNat 10 b

/-- The black level of a frame region (00_scope.md 0.6). -/
def blackLevel : PixelRange → Nat
  | .full => 0 | .limited => 64

/-- The greatest component of a range (R125). -/
def whiteLevel : PixelRange → Nat
  | .full => 1023 | .limited => 940

/-- A black line (R126). -/
def blackLine (range : PixelRange) : Line :=
  lineOfFn fun _ => pixelWord 0#2 (blackLevel range) (blackLevel range) (blackLevel range)

/-- The colour of a plane component in the frame's range (R124). -/
def cueColour (range : PixelRange) (c8 : Nat) : Nat :=
  let c10 := 4 * c8 + c8 / 64
  match range with
  | .full => c10
  | .limited => 64 + c10 * 876 / 1023

/-- A component clamped to the region's range (R125). -/
def clampComponent (range : PixelRange) (v : Nat) : Nat :=
  Nat.max (blackLevel range) (Nat.min v (whiteLevel range))

/-- One cue blended into a base component, before the clamp (R125). -/
def blendComponent (c alpha f : Nat) : Nat := (c * alpha + f * (255 - alpha) + 127) / 255

/-- The fade level of a cue at position p (R123). -/
def fadeLevel (inUnit outUnit fadeUp fadeDown p : Nat) : Nat :=
  let up := if fadeUp = 0 then 256 else Nat.min 256 (256 * (p + 1 - inUnit) / fadeUp)
  let down := if fadeDown = 0 then 256 else Nat.min 256 (256 * (outUnit - p) / fadeDown)
  Nat.min up down

/-- A cue as drawn on a line: its fade level and its plane line. -/
structure DrawnCue where
  level : Nat
  plane : Line
  deriving DecidableEq, Repr

/-- One component of a frame pixel under one drawn cue: blended, then clamped (R125).  `lo` is the component's bit in the
plane pixel word. -/
def drawComponent (range : PixelRange) (pixel : BitVec 32) (level lo f : Nat) : Nat :=
  clampComponent range
    (blendComponent (cueColour range (wordField pixel lo 8)) (wordField pixel 24 8 * level / 256) f)

/-- One component of pixel `i`: every drawn cue in turn, or one clamp when no cue is drawn (R125). -/
def compositeComponent (range : PixelRange) (drawn : List DrawnCue) (i lo f : Nat) : Nat :=
  match drawn with
  | [] => clampComponent range f
  | ds => ds.foldl (fun acc d => drawComponent range (lineWord d.plane i) d.level lo acc) f

/-- A composited pixel word (R125): the two unused bits are the base's. -/
def compositeWord (range : PixelRange) (drawn : List DrawnCue) (base : BitVec 32) (i : Nat) : BitVec 32 :=
  pixelWord (base.extractLsb' 30 2)
    (compositeComponent range drawn i 16 (wordField base 20 10))
    (compositeComponent range drawn i 8 (wordField base 10 10))
    (compositeComponent range drawn i 0 (wordField base 0 10))

/-- A composited line (R125). -/
def compositeLine (range : PixelRange) (drawn : List DrawnCue) (base : Line) : Line :=
  lineOfFn fun i => compositeWord range drawn (lineWord base i) i

/-! ### Sound words and gain (Table 11-7, R87, R91) -/

/-- The gain a target stands for (R91). -/
def targetGain : RampTarget → Nat
  | .silence => 0 | .unity => 32768

/-- The gain at a composition sample under a gain ramp record (R91), the first row whose condition holds. -/
def gainAt (r : GainRamp) (sample : Nat) : Nat :=
  if sample < r.startSample then r.startGain
  else if r.length = 0 ∨ r.startSample + r.length ≤ sample then targetGain r.target
  else
    ((r.startGain : Int) +
      Int.tdiv (((targetGain r.target : Int) - (r.startGain : Int)) * ((sample : Int) - (r.startSample : Int)))
        (r.length : Int)).toNat

/-- The signed 24-bit sample of a sound word. -/
def soundSample (w : BitVec 32) : Int := (w.extractLsb' 8 24).toInt

/-- A sample scaled by a gain: floor(s × g / 32768) (R87). -/
def scaleSample (s : Int) (g : Nat) : Int := Int.fdiv (s * g) 32768

/-- A sound word from a sample, the low 8 bits zero. -/
def soundWord (s : Int) : BitVec 32 := BitVec.ofInt 24 s ++ 0#8

/-- A sound line as the Sound Stage returns it (R87). -/
def soundLine (channels : Nat) (mask : BitVec 16) (gain : Nat) (opened : Line) : Line :=
  lineOfFn fun c =>
    if channels ≤ c ∨ mask.getLsbD c then soundWord 0
    else soundWord (scaleSample (soundSample (lineWord opened c)) gain)

/-! ### Keystream (R75) -/

/-- Sixteen bytes as a block, byte 0 least significant. -/
def blockOfBytes : List Byte → BitVec 128
  | [] => 0#128
  | b :: bs => b.setWidth 128 ||| (blockOfBytes bs <<< 8)

/-- The counter block of line offset L and block b (R75). -/
def counterBlock (nonce : BitVec 64) (offset b : Nat) : BitVec 128 :=
  blockOfBytes (beBytes 8 nonce.toNat ++ beBytes 4 offset ++ beBytes 4 b)

/-- The 64 bytes of keystream of a line: block b covers bytes 16b to 16b + 15 (R75). -/
def keystream (material : BitVec 128) (nonce : BitVec 64) (offset : Nat) : Line :=
  Config.blockFunction material (counterBlock nonce offset 3) ++ Config.blockFunction material (counterBlock nonce offset 2) ++
    Config.blockFunction material (counterBlock nonce offset 1) ++ Config.blockFunction material (counterBlock nonce offset 0)

/-! ### Picture header and CRC-32 (R78, Table 11-8) -/

/-- One shift of the CRC-32 register toward its low-order end (R78). -/
def crc32Shift (x : BitVec 32) : BitVec 32 :=
  if x.getLsbD 0 then (x >>> 1) ^^^ 3988292384#32 else x >>> 1

/-- One byte into the CRC-32 register (R78). -/
def crc32Step (r : BitVec 32) (b : Byte) : BitVec 32 :=
  crc32Shift (crc32Shift (crc32Shift (crc32Shift (crc32Shift (crc32Shift (crc32Shift (crc32Shift
    (r ^^^ b.setWidth 32))))))))

/-- The register's starting value (R78). -/
def crc32Start : BitVec 32 := BitVec.allOnes 32

/-- The register after the last byte, finished (R78). -/
def crc32Finish (r : BitVec 32) : BitVec 32 := r ^^^ BitVec.allOnes 32

/-- Bytes folded into the register in order. -/
def crc32Fold (r : BitVec 32) (bs : List Byte) : BitVec 32 := bs.foldl crc32Step r

/-- The unit number of an opened header line. -/
def headerUnit (l : Line) : Nat := lineField l 0 4

/-- The payload length of an opened header line. -/
def headerLength (l : Line) : Nat := lineField l 4 4

/-- The payload CRC of an opened header line. -/
def headerCrc (l : Line) : BitVec 32 := l.extractLsb' 64 32

/-- The number of payload lines m = ceil(length / 64) (R78). -/
def payloadLines (length : Nat) : Nat := (length + 63) / 64

/-- The payload bytes that line j of a unit carries (R78). -/
def payloadBytes (length j : Nat) : Nat :=
  if j < payloadLines length then 64 else length - 64 * (j - 1)

/-! ### Cue records (R101, R102, Table 11-9) -/

/-- The CRC-8 carried in the record's last byte equals the CRC-8 of its first 63 bytes (R100, R101). -/
def cueCrcOk (l : Line) : Bool := crc8 (lineBytes l 63) == lineByte l 63

/-- The cue of a record line with its window fields clamped (R102); the plane region index is given. -/
def cueOfLine (l : Line) (plane : Fin 24) : Cue where
  number := lineField l 4 4
  track := l.extractLsb' 16 16
  forced := l.getLsbD 8
  inUnit := lineField l 8 3
  outUnit := lineField l 11 3
  fadeUp := lineField l 14 1
  fadeDown := lineField l 15 1
  x0 := lineField l 16 2 / 16 * 16
  y0 := lineField l 18 2
  w := (lineField l 20 2 + 15) / 16 * 16
  h := lineField l 22 2
  plane := plane
  px := lineField l 26 2 / 16 * 16
  py := lineField l 28 2

/-- The plane region index a record line carries, when it is 0 to 23 (R100, check 5). -/
def cuePlaneOf (l : Line) : Option (Fin 24) :=
  if h : lineField l 24 1 < 24 then some ⟨lineField l 24 1, h⟩ else none

/-! ### Region entries (R3, R4, R6) -/

/-- Whether a kind is an essence kind. -/
def isEssence : RegionKind → Bool
  | .pictureEssence | .soundEssence => true
  | .openMemory | .frame | .plane | .cue => false

/-- Whether a kind has width, height and row pitch (R3). -/
def hasGeometry : RegionKind → Bool
  | .frame | .plane => true
  | .openMemory | .pictureEssence | .soundEssence | .cue => false

/-- An entry is VALID and of kind PLANE (R100, R119). -/
def isPlane (e : RegionEntry) : Bool := e.valid && e.kind == .plane

/-- The entry a written record makes, fields its kind does not have stored as R3 gives, a kind outside the six as OPEN. -/
def entryOfWrite (w : RegionWrite) : RegionEntry :=
  let kind := (regionKindOf w.kind).getD .openMemory
  { valid := w.valid, base := w.base.toNat, size := w.size.toNat, kind := kind, writers := w.writers,
    reel := if isEssence kind then w.reel.toNat else 0,
    stride := if kind = .pictureEssence then w.stride.toNat else 0,
    width := if hasGeometry kind then w.width.toNat else 0,
    height := if hasGeometry kind then w.height.toNat else 0,
    pitch := if hasGeometry kind then w.pitch.toNat else 0,
    range := if kind = .frame ∧ w.limited then .limited else .full,
    isProtected := decide (kind = .frame) && w.isProtected }

/-- A VALID entry matches a line address (R4). -/
def entryMatches (e : RegionEntry) (line : Nat) : Bool :=
  e.valid && decide (e.base ≤ line) && decide (line < e.base + e.size)

/-- Two ranges of lines share a line. -/
def rangesMeet (e f : RegionEntry) : Bool :=
  decide (e.base < f.base + f.size) && decide (f.base < e.base + e.size)

/-- The geometry check of a FRAME or PLANE entry (R3, R6 check 6). -/
def geometryOk (e : RegionEntry) : Bool :=
  decide (16 ≤ e.width) && decide (e.width ≤ 4096) && decide (e.width % 16 = 0) && decide (1 ≤ e.height) &&
    decide (e.height ≤ 2160) && decide (e.width / 16 ≤ e.pitch) && decide (e.pitch ≤ 65535) &&
    decide (e.height * e.pitch ≤ e.size)

/-- A padding line of a FRAME region (R4). -/
def isPadding (b : Binding) : Bool :=
  decide (b.height * b.pitch ≤ b.offset) || decide (b.width / 16 ≤ b.offset % b.pitch)

/-- The binding of an address that no VALID entry matches (R4): OPEN, every originator a writer. -/
def openBinding (line : Nat) : Binding where
  entry := none
  kind := .openMemory
  offset := line
  writers := 255#8
  reel := 0
  stride := 0
  width := 0
  height := 0
  pitch := 0
  range := .full
  isProtected := false

/-- The binding to entry `i` (R4). -/
def bindingOf (i : Fin 24) (e : RegionEntry) (line : Nat) : Binding where
  entry := some i
  kind := e.kind
  offset := line - e.base
  writers := e.writers
  reel := e.reel
  stride := e.stride
  width := e.width
  height := e.height
  pitch := e.pitch
  range := e.range
  isProtected := e.isProtected

/-- The lookup of a line address in the Region Table (R4). -/
def lookupBinding (regions : Vector RegionEntry 24) (line : Nat) : Binding :=
  match (List.finRange 24).find? fun i => entryMatches regions[i] line with
  | some i => bindingOf i regions[i] line
  | none => openBinding line

/-! ### Licences and key slots -/

/-- A window holds at `now`: not-before ≤ now < not-after (R43, R58). -/
def windowHolds (notBefore notAfter now : Nat) : Bool := decide (notBefore ≤ now) && decide (now < notAfter)

/-- The licence a slot that is not EMPTY holds. -/
def licenceOf : LicenceSlot → Option Licence
  | .empty => none
  | .active l | .suspended l => some l

/-- A slot with its licence changed, its state kept. -/
def mapLicence (f : Licence → Licence) : LicenceSlot → LicenceSlot
  | .empty => .empty
  | .active l => .active (f l)
  | .suspended l => .suspended (f l)

/-- A slot that becomes SUSPENDED (R140). -/
def suspendSlot : LicenceSlot → LicenceSlot
  | .empty => .empty
  | .active l | .suspended l => .suspended l

/-- The fields of a key slot that is not EMPTY. -/
def keyFieldsOf : KeySlot → Option KeyFields
  | .empty => none
  | .loaded f _ | .inUse f _ | .lapsed f _ _ | .expired f => some f

/-- The slot is LAPSED. -/
def isLapsed : KeySlot → Bool
  | .lapsed _ _ _ => true
  | .empty | .loaded _ _ | .inUse _ _ | .expired _ => false

/-- The expiry of one slot (R63): LOADED becomes EXPIRED and loses its material, IN_USE becomes LAPSED with the grace reel. -/
def expireSlot (now grace : Nat) : KeySlot → KeySlot
  | .loaded f m => if f.notAfter ≤ now then .expired f else .loaded f m
  | .inUse f m => if f.notAfter ≤ now then .lapsed f m grace else .inUse f m
  | .empty => .empty
  | .lapsed f m g => .lapsed f m g
  | .expired f => .expired f

/-- A slot taken by a full show at PRIME (R44). -/
def takeSlot : KeySlot → KeySlot
  | .loaded f m => .inUse f m
  | .empty => .empty
  | .inUse f m => .inUse f m
  | .lapsed f m g => .lapsed f m g
  | .expired f => .expired f

/-- A slot released by STOP (R53). -/
def releaseSlot : KeySlot → KeySlot
  | .inUse f m => .loaded f m
  | .lapsed f _ _ => .expired f
  | .empty => .empty
  | .loaded f m => .loaded f m
  | .expired f => .expired f

/-- The key slots a Show Record names, picture and sound of every reel. -/
def namedKeys (r : ShowRecord) : List (Fin 16) := r.reels.flatMap fun x => [x.pictureKey, x.soundKey]

/-- The policies R145 allows a kind. -/
def policyAllowed : FaultKind → Policy → Bool
  | .syncLoss, _ | .pictureStarved, _ | .soundStarved, _ => true
  | .unitCheck, p => p != .ignore
  | .keyLapsed, p | .storeFail, p => p == .latch
  | .watchdog, p => p != .timed
  | .cueOverrun, p | .access, p => p == .report || p == .ignore

/-- The condition kinds (R145). -/
def isConditionKind : FaultKind → Bool
  | .syncLoss | .pictureStarved | .soundStarved | .keyLapsed | .watchdog => true
  | .unitCheck | .cueOverrun | .access | .storeFail => false

/-- All nine kinds, in index order. -/
def allKinds : List FaultKind :=
  [.syncLoss, .pictureStarved, .soundStarved, .unitCheck, .keyLapsed, .watchdog, .cueOverrun, .access, .storeFail]

/-- A permutation of a list, chosen by a code: every permutation has a code (log 7). -/
def shuffle {α : Type} : List α → Nat → List α
  | [], _ => []
  | x :: xs, n => (shuffle xs (n / (xs.length + 1))).insertIdx (n % (xs.length + 1)) x

/-! ### Lanes as data (R106 to R109) -/

/-- A cue inserted in the order of R106: after every queued cue of equal in unit. -/
def insertCue (c : Cue) : List Cue → List Cue
  | [] => [c]
  | d :: ds => if d.inUnit ≤ c.inUnit then d :: insertCue c ds else c :: d :: ds

/-- A filter matches a track id (R103). -/
def filterMatches (f : Filter) (track : BitVec 16) : Bool :=
  f.enabled && (track &&& f.mask) == (f.matchValue &&& f.mask)

/-- The action of the first matching filter, or the default action (R103). -/
def filterActionFor (c : CueIntake) (track : BitVec 16) : FilterAction :=
  match c.filters.toList.find? fun f => filterMatches f track with
  | some f => f.action
  | none => c.defaultAction

/-- A cue that arrives at a lane (R107, R108): the lane after it, and whether CUE_OVERRUN is raised.  `playing` is
case 2's test on the show state: RUNNING or HELD. -/
def laneArrive (playing : Bool) (p : Nat) (c : Cue) (lane : Lane) : Lane × Bool :=
  match lane.active with
  | some a =>
    if a.cue.number = c.number then
      ({ lane with
          active := some { a with update := some { outUnit := c.outUnit, fadeDown := c.fadeDown } }
          counts := { lane.counts with updated := satInc Config.max16 lane.counts.updated } }, false)
    else arriveQueued lane
  | none => arriveQueued lane
where
  /-- R108's four cases. -/
  arriveQueued (lane : Lane) : Lane × Bool :=
    if lane.queue.any fun d => d.number == c.number then
      ({ lane with
          queue := insertCue c (lane.queue.filter fun d => d.number != c.number)
          counts := { lane.counts with replaced := satInc Config.max16 lane.counts.replaced } }, false)
    else if playing ∧ c.outUnit ≤ p then
      ({ lane with counts := { lane.counts with late := satInc Config.max16 lane.counts.late } }, false)
    else if 16 ≤ lane.queue.length then
      ({ lane with counts := { lane.counts with overrun := satInc Config.max16 lane.counts.overrun } }, true)
    else
      ({ lane with
          queue := insertCue c lane.queue
          counts := { lane.counts with inserted := satInc Config.max16 lane.counts.inserted } }, false)

/-- Step 1 of R109: a pending update takes effect. -/
def applyUpdate (a : ActiveCue) : ActiveCue :=
  match a.update with
  | some u => { cue := { a.cue with outUnit := u.outUnit, fadeDown := u.fadeDown }, update := none }
  | none => a

/-- Steps 1 and 2 of R109: the update, then the retirement. -/
def retireActive (p : Nat) (lane : Lane) : Lane :=
  match lane.active with
  | none => lane
  | some a =>
    if (applyUpdate a).cue.outUnit ≤ p then
      { lane with active := none, counts := { lane.counts with retired := satInc Config.max16 lane.counts.retired } }
    else { lane with active := some (applyUpdate a) }

/-- A cue is due at p when its in unit is at or below p (R109 step 3) and below a bound.  The bound is T by R102, a cue of in
unit T or more being never activated, and T + 1 where the final advance, to p = T, is to take a cue of in unit T too (R109;
log 28).  Below T the two bounds say the same. -/
def cueDue (p bound : Nat) (c : Cue) : Bool := decide (c.inUnit ≤ p) && decide (c.inUnit < bound)

/-- The cues due at p, at the head of the queue (R109 step 3). -/
def dueCues (p bound : Nat) (queue : List Cue) : List Cue := queue.takeWhile (cueDue p bound)

/-- The cues left in the queue (R109 step 3). -/
def laterCues (p bound : Nat) (queue : List Cue) : List Cue := queue.dropWhile (cueDue p bound)

/-- Steps 3 and 4 of R109: due cues leave the queue; the last that is not over becomes active, and what it displaces is cut. -/
def takeDue (p bound : Nat) (lane : Lane) : Lane :=
  let due := dueCues p bound lane.queue
  let live := due.filter fun c => decide (p < c.outUnit)
  let skipped := satAdd Config.max16 lane.counts.skipped (due.length - live.length)
  match live.getLast? with
  | none => { lane with queue := laterCues p bound lane.queue, counts := { lane.counts with skipped := skipped } }
  | some c =>
    let displaced := live.length - 1 + (if lane.active.isSome then 1 else 0)
    { lane with
      queue := laterCues p bound lane.queue
      active := some { cue := c, update := none }
      counts := { lane.counts with skipped := skipped, cut := satAdd Config.max16 lane.counts.cut displaced } }

/-- Activation of a lane for position p, of the cues of in unit below the bound (R109). -/
def laneActivate (p bound : Nat) (lane : Lane) : Lane := takeDue p bound (retireActive p lane)

/-- Step 5 of R109: the lane's CUE_LOW event is set. -/
def laneLow (p bound : Nat) (lane : Lane) : Bool :=
  !(dueCues p bound lane.queue).isEmpty && decide ((laterCues p bound lane.queue).length ≤ lane.lowMark)

/-- A flushed lane (R114). -/
def laneFlush (lane : Lane) : Lane := { lane with queue := [], active := none, counts := {} }

end Sys2Proof.Machine
end

