-- ==== Sys2Proof/Machine/Flags.lean ====
section
/-! DEFINITION. Machine/Flags.lean: what is computed from the state and not stored: the output condition (R148), the
predicate picture shown (R55), the derived values of the show (R38), the instants at which expiries fall due (R25, R27,
R30, R154), and the output pins (R155, R162). -/

namespace Sys2Proof.Machine

/-! ### Show -/

/-- The show is marked full. -/
def isFull (s : State) : Bool := s.ctl.mark == .full

/-- The show state is RUNNING. -/
def isRunning (s : State) : Bool := s.ctl.state == .running

/-- The show is primed: PRIMED, RUNNING, HELD or ENDED, the states in which the Region Table is locked (R7) and in which a
ramp trigger is acted on (R94). -/
def isPrimed (s : State) : Bool :=
  match s.ctl.state with
  | .primed | .running | .held | .ended => true
  | .empty | .loaded => false

/-- The total duration T; 0 while the Show Record is absent. -/
def showTotal (s : State) : Nat :=
  match s.ctl.record with
  | some r => totalDuration r
  | none => 0

/-- Samples per unit; 0 while the Show Record is absent. -/
def showSpu (s : State) : Nat :=
  match s.ctl.record with
  | some r => samplesPerUnit r
  | none => 0

/-- The current reel at p; 0 while the Show Record is absent. -/
def showReel (s : State) : Nat :=
  match s.ctl.record with
  | some r => currentReel r s.ctl.position
  | none => 0

/-- The sync source is INTERNAL. -/
def isInternal (s : State) : Bool :=
  match s.ctl.record with
  | some r => r.sync == .internal
  | none => false

/-! ### Supervisor -/

/-- The fault table entry of a kind. -/
def faultOf (s : State) (k : FaultKind) : FaultEntry := s.sup.faults[faultIndex k]

/-- The policy entry of a kind. -/
def policyOfKind (s : State) (k : FaultKind) : PolicyEntry := s.sup.policies[faultIndex k]

/-- The latched set is not empty. -/
def anyLatched (s : State) : Bool := allKinds.any fun k => (faultOf s k).latched

/-- The output condition (R148): BLANK_LATCHED exactly when the latched set is not empty, else BLANK_TIMED exactly when the
countdown is above 0, else OPEN. -/
def outputCondition (s : State) : OutputCondition :=
  if anyLatched s then .blankLatched
  else if 0 < s.sup.countdown then .blankTimed
  else .openOutput

/-- The predicate picture shown (R55). -/
def pictureShown (s : State) : Bool :=
  isRunning s && isFull s && outputCondition s == .openOutput

/-- A preview display (R121): marked preview, in PRIMED, RUNNING or HELD. -/
def previewDisplay (s : State) : Bool :=
  s.ctl.mark == .preview &&
    match s.ctl.state with
    | .primed | .running | .held => true
    | .empty | .loaded | .ended => false

/-! ### Expiries -/

/-- The timebase has passed E + W in TRACKING with the projector (R27). -/
def windowDue (s : State) : Bool :=
  s.clock.substate == .tracking && !isInternal s &&
    timeBefore (s.clock.expected + BitVec.ofNat 48 s.clock.window) s.clock.timebase

/-- The timebase has reached E in TRACKING with the internal source (R30). -/
def internalDue (s : State) : Bool :=
  s.clock.substate == .tracking && isInternal s && !timeBefore s.clock.timebase s.clock.expected

/-- The timebase has reached the anchor deadline in AWAITING_ANCHOR (R25). -/
def anchorDue (s : State) : Bool :=
  s.clock.substate == .awaitingAnchor &&
    match s.clock.anchorDeadline with
    | some d => !timeBefore s.clock.timebase d
    | none => false

/-- The timebase has reached the watchdog's deadline (R154). -/
def watchdogDue (s : State) : Bool :=
  match s.sup.watchdog.deadline with
  | some d => !timeBefore s.clock.timebase d
  | none => false

/-- The Show Clock's expiry that is due, if any: at most one, by the sub-state and the source. -/
def clockExpiryDue (s : State) : Option Instr :=
  if windowDue s then some .windowExpiry
  else if internalDue s then some .internalExpiry
  else if anchorDue s then some .anchorTimeout
  else none

/-! ### Pins -/

/-- BOOTH_FAULT_N is driven low (R155). -/
def boothFaultLow (s : State) : Bool :=
  outputCondition s != .openOutput ||
    allKinds.any fun k => (faultOf s k).flag && (policyOfKind s k).lineFlag

/-- ATTN_A is driven high (R162): an event pending, enabled and routed to it. -/
def attnA (s : State) : Bool :=
  (s.link.eventPending &&& s.link.eventEnables &&& ~~~s.link.eventSelects) != 0#7

/-- ATTN_B is driven high (R162). -/
def attnB (s : State) : Bool :=
  (s.link.eventPending &&& s.link.eventEnables &&& s.link.eventSelects) != 0#7

/-- The part's 7-bit link address (R157). -/
def linkAddress (s : State) : Nat := 88 + s.power.straps.toNat

/-- The address byte of a write transfer to the part (Table 11-11). -/
def writeAddressByte (s : State) : Byte := writeAddress s.power.straps

/-- The address byte of a read transfer from the part (Table 11-11). -/
def readAddressByte (s : State) : Byte := readAddress s.power.straps

end Sys2Proof.Machine
end

