-- ==== Sys2Proof/Machine/Ops.lean ====
section
/-! DEFINITION. Machine/Ops.lean: the operations that the commands share.  One update for each block of the state; the ports;
the link's answer and events (R159, R162); ramps (R93, R94); holding the show (R48); raising and withdrawing fault kinds
(R145, R147, R151); starting a write of the Count Store (R139); the Show Clock's IDLE (R22). -/

namespace Sys2Proof.Machine

/-! ### One update for each field of the state -/

/-- The state with `pending` replaced. -/
def State.setPending (s : State) (x : List Instr) : State := { s with pending := x }

/-- The state with `power` replaced. -/
def State.setPower (s : State) (x : Power) : State := { s with power := x }

/-- The state with `path` replaced. -/
def State.setPath (s : State) (x : Path) : State := { s with path := x }

/-- The state with `clock` replaced. -/
def State.setClock (s : State) (x : Clock) : State := { s with clock := x }

/-- The state with `ctl` replaced. -/
def State.setCtl (s : State) (x : Controller) : State := { s with ctl := x }

/-- The state with `keys` replaced. -/
def State.setKeys (s : State) (x : Vector KeySlot 16) : State := { s with keys := x }

/-- The state with `secure` replaced. -/
def State.setSecure (s : State) (x : SecureClock) : State := { s with secure := x }

/-- The state with `unpack` replaced. -/
def State.setUnpack (s : State) (x : Unpack) : State := { s with unpack := x }

/-- The state with `sound` replaced. -/
def State.setSound (s : State) (x : Sound) : State := { s with sound := x }

/-- The state with `cues` replaced. -/
def State.setCues (s : State) (x : CueIntake) : State := { s with cues := x }

/-- The state with `overlay` replaced. -/
def State.setOverlay (s : State) (x : Overlay) : State := { s with overlay := x }

/-- The state with `count` replaced. -/
def State.setCount (s : State) (x : CountUnit) : State := { s with count := x }

/-- The state with `sup` replaced. -/
def State.setSup (s : State) (x : Supervisor) : State := { s with sup := x }

/-- The state with `link` replaced. -/
def State.setLink (s : State) (x : Link) : State := { s with link := x }

/-- The state with `free` replaced. -/
def State.setFree (s : State) (x : Nat) : State := { s with free := x }

/-- The state with `out` replaced. -/
def State.setOut (s : State) (x : Outputs) : State := { s with out := x }

/-! ### Ports and link -/

/-- The state at the beginning of an event: no message is on a port yet (log 10). -/
def quiet (s : State) : State := s.setOut {}

/-- A message to the upstream port. -/
def sendUp (m : UpMsg) (s : State) : State := s.setOut { s.out with up := s.out.up ++ [m] }

/-- A transaction to the downstream port. -/
def sendDown (m : DownMsg) (s : State) : State := s.setOut { s.out with down := s.out.down ++ [m] }

/-- The last result, detail and applied delta that a request leaves (R159). -/
def answerWith (r : LinkResult) (detail : Nat) (delta : Int) (s : State) : State :=
  s.setLink { s.link with result := r, detail := detail, delta := delta }

/-- A request answered with a result and detail: the applied delta is 0 (R159). -/
def answer (r : LinkResult) (detail : Nat) (s : State) : State := answerWith r detail 0 s

/-- The seven events of the link, by their bit (Table 11-4). -/
inductive LinkEvent where
  | fault | showState | committed | logHigh | cueLowA | cueLowB | storeDone
  deriving DecidableEq, Repr, Inhabited

/-- The bit of an event (Table 11-4). -/
def eventBit : LinkEvent → BitVec 7
  | .fault => 1#7 | .showState => 2#7 | .committed => 4#7 | .logHigh => 8#7
  | .cueLowA => 16#7 | .cueLowB => 32#7 | .storeDone => 64#7

/-- The setting of an event: its pending flag becomes set (R162). -/
def setEvent (e : LinkEvent) (s : State) : State :=
  s.setLink { s.link with eventPending := s.link.eventPending ||| eventBit e }

/-- The link receives the transfer that ends: the part has supply (log 15), BRST_N is high, and booth reset has not cut the
transfer off (R157). -/
def linkReady (s : State) : Bool := s.power.on && !s.power.brstLow && !s.link.cutOff

/-- A transfer that the link does not receive ends: a transfer cut off has then ended too (R157). -/
def transferLost (s : State) : State := s.setLink { s.link with cutOff := false }

/-- The port has acknowledged so many bytes of the transfer, its own address byte the first (R157). -/
def acknowledge (bytes : Nat) (s : State) : State := s.setOut { s.out with acked := bytes }

/-- A request that reaches the link, of whose transfer the port acknowledges `acked` bytes: one that it does not receive is
discarded, leaves no result, and has no byte acknowledged (R157; log 14). -/
def onLink (acked : Nat) (s : State) (f : State → State) : State :=
  if linkReady s then acknowledge acked (f (quiet s)) else transferLost (quiet s)

/-- An event that the part takes only while it has supply (log 15). -/
def whenOn (s : State) (f : State → State) : State :=
  if s.power.on then f (quiet s) else quiet s

/-- A check of a request: whether it passes, and the refusal it gives. -/
structure Check where
  pass : Bool
  result : LinkResult
  detail : Nat
  deriving DecidableEq, Repr

/-- The first check that fails, in the order given. -/
def firstFailure (checks : List Check) : Option (LinkResult × Nat) :=
  (checks.find? fun c => !c.pass).map fun c => (c.result, c.detail)

/-- A request with its checks: refused at the first that fails, nothing changed but the link's answer; else carried out. -/
def checked (checks : List Check) (accept : State → State) (s : State) : State :=
  match firstFailure checks with
  | some (r, d) => answer r d s
  | none => accept s

/-! ### Gain ramps and masks (R90, R93, R94) -/

/-- The sample at which a ramp started now begins: the sound frontier plus one, or 0 (R93). -/
def rampOrigin (s : State) : Nat :=
  match s.sound.frontier with
  | some f => f + 1
  | none => 0

/-- A ramp started toward a target (R93).  `before` is the gain ramp record as it stood just before the event (log 8).  Where a ramp of
length 0 was started at the same sample by an earlier event, R93's bullets with R91's row 2 give its target as the new start gain, and
R93's last sentence its start gain; the model follows the bullets, its own choice (log 33). -/
def startRamp (before : GainRamp) (target : RampTarget) (s : State) : State :=
  s.setSound { s.sound with
    ramp := { startSample := rampOrigin s, startGain := gainAt before (rampOrigin s), target := target,
              length := s.sound.rampLength } }

/-- The output condition has left OPEN: a trigger in PRIMED, RUNNING, HELD and ENDED (R94). -/
def outputLeft (before : GainRamp) (s : State) : State :=
  if isPrimed s then startRamp before .silence s else s

/-- The output condition has returned to OPEN: a trigger in RUNNING (R94). -/
def outputReturned (before : GainRamp) (s : State) : State :=
  if isRunning s then startRamp before .unity s else s

/-- The pending mute mask becomes the active mask (R90). -/
def activateMask (s : State) : State := s.setSound { s.sound with activeMask := s.sound.pendingMask }

/-! ### Show state, clock idle, hold -/

/-- A change of the show state, with its event (R41). -/
def setShowState (st : ShowState) (s : State) : State :=
  setEvent .showState (s.setCtl { s.ctl with state := st })

/-- The Show Clock enters IDLE and cancels its pending expiry (R22).  A window or internal expiry is pending only in TRACKING. -/
def clockIdle (s : State) : State :=
  s.setClock { s.clock with substate := .idle, anchorDeadline := none }

/-- The show is held (R48): by HOLD, or by the Supervisor's hold. -/
def holdShow (before : GainRamp) (s : State) : State :=
  activateMask (startRamp before .silence (clockIdle (setShowState .held s)))

/-- The Supervisor's hold request: taken only in RUNNING (R48, R151). -/
def holdRequest (before : GainRamp) (s : State) : State :=
  if isRunning s then holdShow before s else s

/-! ### Raising and withdrawing (R145, R147, R151) -/

/-- The fault table entry of a kind changed. -/
def modFault (k : FaultKind) (f : FaultEntry → FaultEntry) (s : State) : State :=
  s.setSup { s.sup with faults := vput s.sup.faults (faultIndex k) (f (faultOf s k)) }

/-- The detector's own condition of a condition kind (R28, R85, R97, R51, R154). -/
def detectorOf (s : State) : FaultKind → Bool
  | .syncLoss => s.clock.syncLoss
  | .pictureStarved => s.unpack.starved
  | .soundStarved => s.sound.starved
  | .keyLapsed => s.ctl.keyLapsed
  | .watchdog => s.sup.watchdog.condition
  | .unitCheck | .cueOverrun | .access | .storeFail => false

/-- The detector's own condition set. -/
def setDetector (k : FaultKind) (b : Bool) (s : State) : State :=
  match k with
  | .syncLoss => s.setClock { s.clock with syncLoss := b }
  | .pictureStarved => s.setUnpack { s.unpack with starved := b }
  | .soundStarved => s.setSound { s.sound with starved := b }
  | .keyLapsed => s.setCtl { s.ctl with keyLapsed := b }
  | .watchdog => s.setSup { s.sup with watchdog := { s.sup.watchdog with condition := b } }
  | .unitCheck | .cueOverrun | .access | .storeFail => s

/-- What every raise does (R147): the count, and for a condition kind the Supervisor's copy of the condition (R145). -/
def countRaise (k : FaultKind) (s : State) : State :=
  modFault k (fun e => { e with raises := satInc Config.max8 e.raises, condition := e.condition || isConditionKind k }) s

/-- The flag and the FAULT event, under REPORT, TIMED and LATCH (R147). -/
def flagFault (k : FaultKind) (s : State) : State :=
  setEvent .fault (modFault k (fun e => { e with flag := true }) s)

/-- The output condition's change under TIMED with blank length `n` (R147): none under a latch.  A TIMED and a LATCH raise taken
together therefore leave a countdown that their order decides, as R147's table has it and against R153's last sentence
(log 32). -/
def blankFor (before : GainRamp) (n : Nat) (s : State) : State :=
  if anyLatched s then s
  else
    let t := s.setSup { s.sup with countdown := Nat.max s.sup.countdown n }
    if outputCondition s = .openOutput then outputLeft before t else t

/-- The latch (R147, R151): the kind joins the latched set, the output becomes BLANK_LATCHED, and the hold request goes to
the Show Controller. -/
def latchFault (before : GainRamp) (k : FaultKind) (s : State) : State :=
  let t := modFault k (fun e => { e with latched := true }) s
  holdRequest before (if outputCondition s = .openOutput then outputLeft before t else t)

/-- A raise at the Supervisor (R147): the policy the kind's entry holds at the event is applied. -/
def raiseFault (before : GainRamp) (k : FaultKind) (s : State) : State :=
  match (policyOfKind s k).policy with
  | .ignore => countRaise k s
  | .report => flagFault k (countRaise k s)
  | .timed => blankFor before (policyOfKind s k).blank (flagFault k (countRaise k s))
  | .latch => latchFault before k (flagFault k (countRaise k s))

/-- A detector's condition becomes active and its kind is raised, unless it is active already: one raise for each episode. -/
def raiseCondition (before : GainRamp) (k : FaultKind) (s : State) : State :=
  if detectorOf s k then s else raiseFault before k (setDetector k true s)

/-- A detector's condition is withdrawn and the withdrawal reported: the Supervisor's copy follows (R145). -/
def withdraw (k : FaultKind) (s : State) : State :=
  modFault k (fun e => { e with condition := false }) (setDetector k false s)

/-! ### Count Store (R139) -/

/-- A write is started: the store becomes BUSY with the write and its image. -/
def startWrite (w : StoreWrite) (s : State) : State := s.setCount { s.count with status := .busy w }

/-- The RAM copy changed. -/
def setRam (ram : CountImage) (s : State) : State := s.setCount { s.count with ram := ram }

/-- The image of a commit write of a set of slots, taken from the RAM copy (R139). -/
def commitImage (slots : List (Fin 8)) (ram : CountImage) : StoreWrite :=
  .commit (slots.map fun i => (i, ram.licences[i])) ram.log ram.sequence

/-- What a write, programmed whole, leaves in the store (9.5). -/
def programWrite (w : StoreWrite) (store : CountImage) : CountImage :=
  match w with
  | .slot i image => { store with licences := vput store.licences i image }
  | .log image => { store with log := image }
  | .screen image => { store with screenId := image }
  | .commit slots log sequence =>
    { store with
      licences := slots.foldl (fun ls p => vput ls p.1 p.2) store.licences, log := log, sequence := sequence }

/-- The slots a write covers as a commit write (R140). -/
def commitSlots : StoreWrite → List (Fin 8)
  | .commit slots _ _ => slots.map (·.1)
  | .slot _ _ | .log _ | .screen _ => []

/-- Slots that become SUSPENDED in the RAM copy (R140). -/
def suspendSlots (slots : List (Fin 8)) (ram : CountImage) : CountImage :=
  { ram with licences := vofFn fun i => if i ∈ slots then suspendSlot ram.licences[i] else ram.licences[i] }

/-- The store is not FAILED. -/
def storeNotFailed (s : State) : Bool :=
  match s.count.status with
  | .failed => false
  | .ready | .busy _ => true

/-- The store is not BUSY. -/
def storeNotBusy (s : State) : Bool :=
  match s.count.status with
  | .busy _ => false
  | .ready | .failed => true

/-- The RAM copy loaded from the store, LOG_HIGH with 48 records or more (R141, R142). -/
def loadRam (s : State) : State :=
  let t := setRam s.count.store s
  if 48 ≤ s.count.store.log.length then setEvent .logHigh t else t

/-! ### Key slots -/

/-- Secure time is valid and every slot's expiry that is due takes place (R63): each slot by itself, the grace reel being the
current reel at p. -/
def expireKeys (s : State) : State :=
  if s.secure.valid then s.setKeys (vmap (expireSlot s.secure.time (showReel s)) s.keys) else s

/-- Every named key slot changed by `f` (R44, R53). -/
def mapNamedKeys (f : KeySlot → KeySlot) (r : ShowRecord) (keys : Vector KeySlot 16) : Vector KeySlot 16 :=
  vofFn fun i => if i ∈ namedKeys r then f keys[i] else keys[i]

end Sys2Proof.Machine
end

