-- ==== Sys2Proof/Machine/CueIntake.lean ====
section
/-! DEFINITION. Machine/CueIntake.lean: Cue Intake: the checks of a cue line (R100), filters (R103), arrival (R105 to R108),
activation (R109 to R111), flushes (R114), and the writes of the FILTER table (R104, R111). -/

namespace Sys2Proof.Machine

/-! ### Intake -/

/-- The intake counts changed. -/
def mapIntake (f : IntakeCounts → IntakeCounts) (s : State) : State :=
  s.setCues { s.cues with counts := f s.cues.counts }

/-- The line is counted taken (R100). -/
def countTaken (s : State) : State := mapIntake (fun c => { c with taken := satInc Config.max32 c.taken }) s

/-- The line is dropped as partial (R100, check 1). -/
def countPartial (s : State) : State :=
  mapIntake (fun c => { c with partialLines := satInc Config.max32 c.partialLines }) s

/-- The line is dropped as malformed (R100, checks 2 to 5). -/
def countMalformed (s : State) : State := mapIntake (fun c => { c with malformed := satInc Config.max32 c.malformed }) s

/-- The cue is dropped as rejected (R103). -/
def countRejected (s : State) : State := mapIntake (fun c => { c with rejected := satInc Config.max32 c.rejected }) s

/-- The cue is dropped as ignored (R105). -/
def countIgnored (s : State) : State := mapIntake (fun c => { c with ignored := satInc Config.max32 c.ignored }) s

/-- The named entry is VALID and of kind PLANE (R100, check 5). -/
def planeReady (s : State) (i : Fin 24) : Bool := isPlane s.path.regions[i]

/-- A booth reset of this microsecond has taken the named plane away, and check 5 of the line that falls together with it is made as
if it had not: R115's last row, against the words of R100, a free value (log 29).  It is so in EMPTY alone, where the cue is ignored. -/
def planeKeptByTie (s : State) (i : Fin 24) : Bool :=
  s.path.planesLost.contains i && s.ctl.state == .empty && Config.checkBeforeReset s.free

/-- The cue that a whole line is, by checks 2 to 5 of R100 and the clamping of R102; none is malformed. -/
def wellFormedCue (s : State) (data : Line) : Option Cue :=
  if lineByte data 0 = 1#8 ∧ cueCrcOk data ∧ lineField data 8 3 < lineField data 11 3 then
    match cuePlaneOf data with
    | some i => if planeReady s i || planeKeptByTie s i then some (cueOfLine data i) else none
    | none => none
  else none

/-- A lane replaced. -/
def putLane (lane : LaneId) (x : Lane) (s : State) : State :=
  match lane with
  | .a => s.setCues { s.cues with laneA := x }
  | .b => s.setCues { s.cues with laneB := x }

/-- A lane of the Cue Intake. -/
def cueLane (s : State) : LaneId → Lane
  | .a => s.cues.laneA
  | .b => s.cues.laneB

/-- Case 2's test on the show state (R108): RUNNING or HELD. -/
def isPlaying (s : State) : Bool :=
  match s.ctl.state with
  | .running | .held => true
  | .empty | .loaded | .primed | .ended => false

/-- A cue arrives at a lane (R107, R108); one dropped at a full queue raises CUE_OVERRUN (R112). -/
def cueArrives (lane : LaneId) (c : Cue) (s : State) : State :=
  let r := laneArrive (isPlaying s) s.ctl.position c (cueLane s lane)
  let t := putLane lane r.1 s
  if r.2 then raiseFault s.sound.ramp .cueOverrun t else t

/-- A cue whose action names a lane, by the show state (R105). -/
def cueToLane (lane : LaneId) (c : Cue) (s : State) : State :=
  match s.ctl.state with
  | .empty | .ended => countIgnored s
  | .loaded | .primed | .running | .held => cueArrives lane c s

/-- A cue that has passed the checks (R103, R105). -/
def cueFiltered (c : Cue) (s : State) : State :=
  match filterActionFor s.cues c.track with
  | .reject => countRejected s
  | .laneA => cueToLane .a c s
  | .laneB => cueToLane .b c s

/-- The intake of a completed cue line (R100). -/
def cueIntake (data : Line) (enables : BitVec 64) (s : State) : State :=
  let t := countTaken s
  if enables ≠ BitVec.allOnes 64 then countPartial t
  else
    match wellFormedCue t data with
    | none => countMalformed t
    | some c => cueFiltered c t

/-! ### Activation and flushes -/

/-- The CUE_LOW event of a lane (R111). -/
def cueLowEvent : LaneId → LinkEvent
  | .a => .cueLowA
  | .b => .cueLowB

/-- Activation of one lane for position p, of the cues of in unit below the bound (R109). -/
def activateLane (lane : LaneId) (p bound : Nat) (s : State) : State :=
  let t := putLane lane (laneActivate p bound (cueLane s lane)) s
  if laneLow p bound (cueLane s lane) then setEvent (cueLowEvent lane) t else t

/-- Activation of both lanes; they touch separate state (R109). -/
def activateLanes (p bound : Nat) (s : State) : State := activateLane .b p bound (activateLane .a p bound s)

/-- A flush of both lanes (R114). -/
def flushLanes (s : State) : State :=
  s.setCues { s.cues with laneA := laneFlush s.cues.laneA, laneB := laneFlush s.cues.laneB }

/-! ### FILTER table writes -/

/-- WRITE_FILTER (R104). -/
def execWriteFilter (index : Fin 8) (w : FilterWrite) (s : State) : Host.Outcome State Fault Refusal :=
  .next (onLink (packetLength 8) s fun s =>
    match filterActionOf w.action with
    | none => answer .refusedValue 2 s
    | some action => answer .ok 0
        (s.setCues { s.cues with
          filters := vput s.cues.filters index
            { enabled := w.enabled, matchValue := w.matchValue, mask := w.mask, action := action } }))

/-- WRITE_DEFAULT_ACTION (R104). -/
def execWriteDefaultAction (action : Byte) (s : State) : Host.Outcome State Fault Refusal :=
  .next (onLink (packetLength 24) s fun s =>
    match filterActionOf action with
    | none => answer .refusedValue 2 s
    | some a => answer .ok 0 (s.setCues { s.cues with defaultAction := a }))

/-- WRITE_LOW_MARK (R111). -/
def execWriteLowMark (lane : LaneId) (mark : Byte) (s : State) : Host.Outcome State Fault Refusal :=
  .next (onLink (packetLength 48) s fun s =>
    checked [{ pass := decide (mark.toNat ≤ 15), result := .refusedValue, detail := 2 }]
      (fun s => answer .ok 0 (putLane lane { cueLane s lane with lowMark := mark.toNat } s)) s)

end Sys2Proof.Machine
end

