-- ==== Sys2Proof/Machine/Unpack.lean ====
section
/-! DEFINITION. Machine/Unpack.lean: the Unpack Engine: mapping (R70, R71), the decryption gate (R72, R73), withheld reads (R74),
unit checking (R79 to R82) and the picture frontier (R84). -/

namespace Sys2Proof.Machine

/-! ### Mapping and gate -/

/-- Where an essence read that belongs to its reel falls (R70, R71): the reel, the unit within it, the composition unit, and
the line in the slot (picture) or the composition sample (sound). -/
structure EssencePlace where
  reel : Nat
  within : Nat
  unit : Nat
  line : Nat
  sample : Nat
  deriving DecidableEq, Repr

/-- The Show Record and its reel of index `i`, when both are present. -/
def reelOf (s : State) (i : Nat) : Option (ShowRecord × Reel) :=
  s.ctl.record.bind fun r => r.reels[i]?.map fun e => (r, e)

/-- The place of a picture read (R70); none is outside reel. -/
def mapPicture (s : State) (b : Binding) : Option EssencePlace :=
  (reelOf s b.reel).bind fun (r, e) =>
    if b.entry = some e.pictureRegion ∧ b.offset < e.duration * b.stride then
      some { reel := b.reel, within := b.offset / b.stride, unit := reelStart r b.reel + b.offset / b.stride,
             line := b.offset % b.stride, sample := 0 }
    else none

/-- The place of a sound read (R71); none is outside reel. -/
def mapSound (s : State) (b : Binding) : Option EssencePlace :=
  (reelOf s b.reel).bind fun (r, e) =>
    if b.entry = some e.soundRegion ∧ b.offset < e.duration * samplesPerUnit r then
      some { reel := b.reel, within := b.offset / samplesPerUnit r,
             unit := reelStart r b.reel + b.offset / samplesPerUnit r, line := 0,
             sample := reelStart r b.reel * samplesPerUnit r + b.offset }
    else none

/-- Why a read is withheld (R73). -/
inductive WithheldReason where
  | state | outsideReel | window | key
  deriving DecidableEq, Repr

/-- What the gate decides: withheld for a reason, or opened at a place under a nonce and material. -/
inductive GateResult where
  | withheld (reason : WithheldReason)
  | opened (place : EssencePlace) (nonce : BitVec 64) (material : BitVec 128)
  deriving DecidableEq, Repr

/-- The STATE test: marked full, and PRIMED, RUNNING or HELD. -/
def gateStateOk (s : State) : Bool :=
  isFull s &&
    match s.ctl.state with
    | .primed | .running | .held => true
    | .empty | .loaded | .ended => false

/-- A unit lies within the read window about p (R72). -/
def inWindow (r : ShowRecord) (p unit : Nat) : Bool :=
  decide (p ≤ unit + r.trail) && decide (unit ≤ p + r.lead)

/-- What a key slot opens reads of a reel with (R73, test 4). -/
def keyOpens (slot : KeySlot) (reel : Nat) : Option (BitVec 64 × BitVec 128) :=
  match slot with
  | .inUse f m => some (f.nonce, m)
  | .lapsed f m grace => if grace = reel then some (f.nonce, m) else none
  | .empty | .loaded _ _ | .expired _ => none

/-- The key slot that the Show Record names for a reel and kind. -/
def slotFor (kind : EssenceKind) (e : Reel) : Fin 16 :=
  match kind with
  | .picture => e.pictureKey
  | .sound => e.soundKey

/-- The place of a read of either kind. -/
def mapEssence (kind : EssenceKind) (s : State) (b : Binding) : Option EssencePlace :=
  match kind with
  | .picture => mapPicture s b
  | .sound => mapSound s b

/-- The decryption gate (R73): four tests, in order. -/
def gate (kind : EssenceKind) (s : State) (b : Binding) : GateResult :=
  if gateStateOk s then
    match mapEssence kind s b, reelOf s b.reel with
    | some place, some (r, e) =>
      if inWindow r s.ctl.position place.unit then
        match keyOpens s.keys[slotFor kind e] b.reel with
        | some (nonce, material) => .opened place nonce material
        | none => .withheld .key
      else .withheld .window
    | _, _ => .withheld .outsideReel
  else .withheld .state

/-- A withheld count incremented. -/
def bumpWithheld (reason : WithheldReason) (c : WithheldCounts) : WithheldCounts :=
  match reason with
  | .state => { c with state := satInc Config.max32 c.state }
  | .outsideReel => { c with outsideReel := satInc Config.max32 c.outsideReel }
  | .window => { c with window := satInc Config.max32 c.window }
  | .key => { c with key := satInc Config.max32 c.key }

/-- The withheld count of a read's kind and reason is incremented (R74). -/
def countWithheld (kind : EssenceKind) (reason : WithheldReason) (s : State) : State :=
  match kind with
  | .picture => s.setUnpack { s.unpack with withheldPicture := bumpWithheld reason s.unpack.withheldPicture }
  | .sound => s.setUnpack { s.unpack with withheldSound := bumpWithheld reason s.unpack.withheldSound }

/-- An opened line (R75). -/
def openLine (b : Binding) (nonce : BitVec 64) (material : BitVec 128) (line : Line) : Line :=
  line ^^^ keystream material nonce b.offset

/-! ### Unit-check contexts.  Context 0 is named by `false`, context 1 by `true`. -/

/-- A context; absent is FREE. -/
def contextOf (u : Unpack) (i : Bool) : Option UnitContext := if i then u.context1 else u.context0

/-- A context replaced. -/
def putContext (i : Bool) (c : Option UnitContext) (u : Unpack) : Unpack :=
  if i then { u with context1 := c } else { u with context0 := c }

/-- A context holds the unit. -/
def holdsUnit (c : Option UnitContext) (unit : Nat) : Bool :=
  match c with
  | some c => c.unit == unit
  | none => false

/-- The context that tracks a unit. -/
def trackedBy (u : Unpack) (unit : Nat) : Option Bool :=
  if holdsUnit u.context0 unit then some false else if holdsUnit u.context1 unit then some true else none

/-- A use of a context (R79, R80): it is stored as the more recently used of the two. -/
def useContext (i : Bool) (c : UnitContext) (u : Unpack) : Unpack :=
  putContext i (some { c with recent := true })
    (putContext (!i) ((contextOf u (!i)).map fun d => { d with recent := false }) u)

/-- The context tracking a unit, if any, becomes FREE uncounted (R79). -/
def freeUnit (unit : Nat) (u : Unpack) : Unpack :=
  match trackedBy u unit with
  | some i => putContext i none u
  | none => u

/-- A context is abandoned (R81). -/
def abandon (i : Bool) (u : Unpack) : Unpack :=
  { putContext i none u with uncheckedUnits := satInc Config.max32 u.uncheckedUnits }

/-- The context used least recently, when both track (context 0 where the order is lost, log 20). -/
def leastRecent (u : Unpack) : Bool :=
  match u.context0 with
  | some c => c.recent
  | none => false

/-- A context as a header claims it (R79). -/
def freshContext (unit length : Nat) (crc : BitVec 32) : UnitContext where
  unit := unit
  length := length
  crc := crc
  expectedLine := 1
  register := crc32Start
  recent := true

/-- The context a header of a unit takes, and the engine's state with it ready to be taken: the one tracking the unit; else a
free one, context 0 first; else the least recently used, abandoned (R79). -/
def claimFor (unit : Nat) (u : Unpack) : Bool × Unpack :=
  match trackedBy u unit with
  | some i => (i, u)
  | none =>
    if u.context0.isNone then (false, u)
    else if u.context1.isNone then (true, u)
    else (leastRecent u, abandon (leastRecent u) u)

/-- A true header claims or restarts a context (R79). -/
def claimContext (unit length : Nat) (crc : BitVec 32) (u : Unpack) : Unpack :=
  useContext (claimFor unit u).1 (freshContext unit length crc) (claimFor unit u).2

/-- The unit-check record at a raise (R82). -/
def noteUnitCheck (cause : UnitCause) (unit reel : Nat) (s : State) : State :=
  s.setUnpack { s.unpack with
    unitCheck :=
      match s.unpack.unitCheck with
      | none => some { cause := cause, unit := unit, reel := reel, further := 0 }
      | some r => some { r with further := satInc Config.max16 r.further } }

/-- UNIT_CHECK is raised (R79, R80, R82). -/
def raiseUnitCheck (cause : UnitCause) (place : EssencePlace) (s : State) : State :=
  raiseFault s.sound.ramp .unitCheck (noteUnitCheck cause place.unit place.reel s)

/-- A unit's completion: its finished CRC against the header's (R80). -/
def completeUnit (place : EssencePlace) (register crc : BitVec 32) (s : State) : State :=
  if crc32Finish register = crc then
    s.setUnpack { s.unpack with checkedUnits := satInc Config.max32 s.unpack.checkedUnits }
  else raiseUnitCheck .crc place s

/-- An opened header line at the unit-check contexts (R79). -/
def checkHeader (place : EssencePlace) (stride : Nat) (opened : Line) (s : State) : State :=
  let free := s.setUnpack (freeUnit place.unit s.unpack)
  if headerUnit opened ≠ place.within then raiseUnitCheck .number place free
  else if (stride - 1) * 64 < headerLength opened then raiseUnitCheck .length place free
  else if headerLength opened = 0 then completeUnit place crc32Start (headerCrc opened) free
  else s.setUnpack (claimContext place.unit (headerLength opened) (headerCrc opened) s.unpack)

/-- The register of a context after the payload line it expects (R78, R80). -/
def foldLine (c : UnitContext) (opened : Line) : BitVec 32 :=
  crc32Fold c.register (lineBytes opened (payloadBytes c.length c.expectedLine))

/-- An opened payload line of the unit that context `i` tracks (R80, R81). -/
def checkPayload (place : EssencePlace) (i : Bool) (c : UnitContext) (opened : Line) (s : State) : State :=
  if place.line = c.expectedLine then
    if c.expectedLine = payloadLines c.length then
      completeUnit place (foldLine c opened) c.crc (s.setUnpack (putContext i none s.unpack))
    else
      s.setUnpack
        (useContext i { c with expectedLine := c.expectedLine + 1, register := foldLine c opened } s.unpack)
  else s.setUnpack (abandon i s.unpack)

/-- An opened picture line at the unit-check contexts. -/
def checkLine (place : EssencePlace) (stride : Nat) (opened : Line) (s : State) : State :=
  if place.line = 0 then checkHeader place stride opened s
  else
    match trackedBy s.unpack place.unit with
    | none => s
    | some i =>
      match contextOf s.unpack i with
      | some c => checkPayload place i c opened s
      | none => s

/-- A frontier raised to a value (R84, R96). -/
def raiseFrontier (f : Option Nat) (v : Nat) : Option Nat :=
  match f with
  | none => some v
  | some u => some (Nat.max u v)

/-- The picture frontier at an opened line: a header line raises it (R84). -/
def movePictureFrontier (place : EssencePlace) (s : State) : State :=
  if place.line = 0 then s.setUnpack { s.unpack with frontier := raiseFrontier s.unpack.frontier place.unit } else s

/-- The data return of a picture read (R73 to R76, R79 to R84). -/
def pictureReturn (txn : Nat) (b : Binding) (line : Line) (s : State) : State :=
  match gate .picture s b with
  | .withheld reason => sendUp (.data txn 0#512) (countWithheld .picture reason s)
  | .opened place nonce material =>
    sendUp (.data txn (openLine b nonce material line))
      (movePictureFrontier place (checkLine place b.stride (openLine b nonce material line) s))

/-- The downstream error of a picture read at the contexts (R81). -/
def pictureError (b : Binding) (s : State) : State :=
  match mapPicture s b with
  | none => s
  | some place =>
    match trackedBy s.unpack place.unit with
    | some i => s.setUnpack (abandon i s.unpack)
    | none => s

/-! ### Show events -/

/-- The contexts freed uncounted, the frontier none and the late count 0 (R86). -/
def clearUnpackShow (s : State) : State :=
  s.setUnpack { s.unpack with context0 := none, context1 := none, frontier := none, late := 0 }

end Sys2Proof.Machine
end

