-- ==== Sys2Proof/Machine/SoundStage.lean ====
section
/-! DEFINITION. Machine/SoundStage.lean: the Sound Stage: sound lines (R87, R88), the sound frontier (R96), what show events set
(R98), and SET MUTE (R89). -/

namespace Sys2Proof.Machine

/-- The channel count of the Show Record; 0 while it is absent. -/
def channelCount (s : State) : Nat :=
  match s.ctl.record with
  | some r => r.channels
  | none => 0

/-- The sound frontier at an opened read (R96). -/
def moveSoundFrontier (sample : Nat) (s : State) : State :=
  s.setSound { s.sound with frontier := raiseFrontier s.sound.frontier sample }

/-- The line the Sound Stage returns for an opened sound line of a sample (R87). -/
def soundReturned (s : State) (sample : Nat) (opened : Line) : Line :=
  soundLine (channelCount s) s.sound.activeMask (gainAt s.sound.ramp sample) opened

/-- The data return of a sound read: the gate, then the Sound Stage (R73 to R76, R87, R88, R96). -/
def soundReturn (txn : Nat) (b : Binding) (line : Line) (s : State) : State :=
  match gate .sound s b with
  | .withheld reason => sendUp (.data txn 0#512) (countWithheld .sound reason s)
  | .opened place nonce material =>
    sendUp (.data txn (soundReturned s place.sample (openLine b nonce material line)))
      (moveSoundFrontier place.sample s)

/-- The frontier none and the late count 0 (R98, PRIME and STOP). -/
def clearSoundShow (s : State) : State := s.setSound { s.sound with frontier := none, late := 0 }

/-- The gain ramp record at unity (R98, PRIME). -/
def unityRamp (s : State) : State :=
  s.setSound { s.sound with
    ramp := { startSample := 0, startGain := 32768, target := .unity, length := s.sound.rampLength } }

/-- SET MUTE (R89): in RUNNING the mask waits for the next advance. -/
def execSetMute (mask : BitVec 16) (s : State) : Host.Outcome State Fault Refusal :=
  .next (onLink (packetLength 2) s fun s => answer .ok 0
    (s.setSound { s.sound with
      pendingMask := mask
      activeMask := if isRunning s then s.sound.activeMask else mask }))

end Sys2Proof.Machine
end

