-- ==== Sys2Proof/Machine/Advance.lean ====
section
/-! DEFINITION. Machine/Advance.lean: the advance (R31): what the Show Controller takes from it (R50, R32) and the reactions of the
other blocks, each by its own rule (R51, R85, R90, R94, R97, R109, R134, R135, R149). -/

namespace Sys2Proof.Machine

/-! ### The commit of a showing -/

/-- The licence that a slot which is not EMPTY holds; zeros otherwise (log 20). -/
def slotLicence (x : LicenceSlot) : Licence :=
  (licenceOf x).getD
    { licenceId := 0, compositionId := 0, granted := 0, remaining := 0, used := 0, notBefore := 0, notAfter := 0,
      permille := 0, screenId := 0 }

/-- One showing taken from a licence (R135 step 2). -/
def countShowing (l : Licence) : Licence := { l with remaining := l.remaining - 1, used := l.used + 1 }

/-- The sequence counter's greatest value (R136). -/
def maxSequence : Nat := 18446744073709551615

/-- The record of a commit against a slot (R136). -/
def commitRecord (s : State) (r : ShowRecord) (slot : Fin 8) : LogRecord where
  sequence := satInc maxSequence s.count.ram.sequence
  slot := slot
  licenceId := (slotLicence s.count.ram.licences[slot]).licenceId
  compositionId := r.compositionId
  commitTime := s.secure.time
  duration := totalDuration r
  outputAtCommit := outputCondition s
  blanked := s.count.blanked

/-- Steps 2 and 3 of R135: the counts, the sequence counter and the record in the RAM copy; LOG_HIGH at 48 records or more
(R137). -/
def appendShowing (r : ShowRecord) (slot : Fin 8) (s : State) : State :=
  let ram := s.count.ram
  let log := ram.log ++ [commitRecord s r slot]
  let t := setRam { ram with
    licences := vput ram.licences slot (mapLicence countShowing ram.licences[slot])
    sequence := satInc maxSequence ram.sequence
    log := log } s
  if 48 ≤ log.length then setEvent .logHigh t else t

/-- A slot joins the waiting commit set (R139), which the microsecond's mark keeps (log 30). -/
def joinWaiting (slot : Fin 8) (s : State) : State :=
  s.setCount { s.count with
    commitSeen := true
    waiting := if slot ∈ s.count.waiting then s.count.waiting else s.count.waiting ++ [slot] }

/-- Step 5 of R135: the commit at the Count Store, by its state (R139, R140). -/
def storeCommit (before : GainRamp) (slot : Fin 8) (s : State) : State :=
  match s.count.status with
  | .ready => startWrite (commitImage [slot] s.count.ram) s
  | .busy _ => joinWaiting slot s
  | .failed => raiseFault before .storeFail (setRam (suspendSlots [slot] s.count.ram) s)

/-- The commit of a showing (R135, steps 2 to 5). -/
def commitShowing (before : GainRamp) (r : ShowRecord) (slot : Fin 8) (s : State) : State :=
  let t := appendShowing r slot s
  storeCommit before slot (setEvent .committed (t.setCtl { t.ctl with committed := true }))

/-- The blanked count at an advance of a full show (R134). -/
def countBlanked (s : State) : State :=
  if outputCondition s = .openOutput then s
  else s.setCount { s.count with blanked := satInc Config.max16 s.count.blanked }

/-- The commit is due: p has come to C, and the committed flag is clear (R135). -/
def commitDue (s : State) : Bool := s.ctl.position == s.ctl.commitUnit && !s.ctl.committed

/-- The Count Unit at an advance (R134, R135). -/
def countAdvance (before : GainRamp) (s : State) : State :=
  if isFull s then
    let t := countBlanked s
    if commitDue t then
      match t.ctl.record, t.count.reserved with
      | some r, some slot => commitShowing before r slot t
      | _, _ => t
    else t
  else s

/-! ### The other reactions -/

/-- Entry into a reel with a LAPSED key slot (R51). -/
def reelAdvance (before : GainRamp) (s : State) : State :=
  match s.ctl.record with
  | none => s
  | some r =>
    match reelEntered r s.ctl.position with
    | none => s
    | some e =>
      if isFull s && (isLapsed s.keys[e.pictureKey] || isLapsed s.keys[e.soundKey]) then
        raiseCondition before .keyLapsed s
      else s

/-- A late count moved and the limit's test (R85, R97): `behind` says whether the frontier lags. -/
def nextLate (behind : Bool) (late : Nat) : Nat := if behind then satInc Config.max8 late else 0

/-- A frontier is none or less than a value (R85, R97). -/
def frontierBehind (f : Option Nat) (v : Nat) : Bool :=
  match f with
  | none => true
  | some u => decide (u < v)

/-- A starvation detector after its comparison: raised at the limit, withdrawn when caught up (R85, R97). -/
def judgeStarved (before : GainRamp) (k : FaultKind) (behind : Bool) (late limit : Nat) (s : State) : State :=
  if behind then (if limit ≤ late then raiseCondition before k s else s)
  else if detectorOf s k then withdraw k s else s

/-- A comparison is made: the show is full and p is less than T (R85, R97). -/
def comparisonMade (s : State) : Bool := isFull s && decide (s.ctl.position < showTotal s)

/-- The Unpack Engine at an advance (R85). -/
def pictureAdvance (before : GainRamp) (s : State) : State :=
  if comparisonMade s then
    let behind := frontierBehind s.unpack.frontier s.ctl.position
    let late := nextLate behind s.unpack.late
    judgeStarved before .pictureStarved behind late s.unpack.limit (s.setUnpack { s.unpack with late := late })
  else s

/-- The Sound Stage's comparison at an advance (R97). -/
def soundCompare (before : GainRamp) (s : State) : State :=
  if comparisonMade s then
    let behind := frontierBehind s.sound.frontier (s.ctl.position * showSpu s)
    let late := nextLate behind s.sound.late
    judgeStarved before .soundStarved behind late s.sound.limit (s.setSound { s.sound with late := late })
  else s

/-- The Sound Stage at an advance: the mask (R90), the ramp of the final advance (R94), the comparison (R97). -/
def soundAdvance (before : GainRamp) (s : State) : State :=
  let t := activateMask s
  soundCompare before (if s.ctl.position = showTotal s then startRamp before .silence t else t)

/-- The Supervisor at an advance (R149). -/
def countdownAdvance (before : GainRamp) (s : State) : State :=
  let t := s.setSup { s.sup with countdown := s.sup.countdown - 1 }
  if outputCondition s = .blankTimed ∧ outputCondition t = .openOutput then outputReturned before t else t

/-- The bound on the in units that an advance activates: T, and at the final advance T or T + 1, as R102 or R109 governs it, a
free value (log 28). -/
def activationBound (s : State) : Nat :=
  if s.ctl.position = showTotal s then if Config.finalActivation s.free then showTotal s + 1 else showTotal s else showTotal s

/-- Cue Intake at an advance, the final one included (R109). -/
def cueAdvance (s : State) : State := activateLanes s.ctl.position (activationBound s) s

/-! ### The advance -/

/-- What reacts to an advance after the Show Controller: the six blocks' rules, and the Show Clock's own raise of SYNC_LOSS
at a miss (R28, R31). -/
inductive Reaction where
  | reel | cues | sound | picture | countdown | count | syncLoss
  deriving DecidableEq, Repr

/-- One reaction.  `before` is the gain ramp record before the event (log 8). -/
def react (before : GainRamp) (s : State) : Reaction → State
  | .reel => reelAdvance before s
  | .cues => cueAdvance s
  | .sound => soundAdvance before s
  | .picture => pictureAdvance before s
  | .countdown => countdownAdvance before s
  | .count => countAdvance before s
  | .syncLoss => raiseCondition before .syncLoss s

/-- The reactions of every advance. -/
def blockReactions : List Reaction := [.reel, .cues, .sound, .picture, .countdown, .count]

/-- The Show Controller takes the advance: p is one more, and at T the show is ENDED and the Show Clock IDLE (R32, R50). -/
def takeAdvance (s : State) : State :=
  let t := s.setCtl { s.ctl with position := s.ctl.position + 1 }
  if s.ctl.position + 1 = showTotal s then setShowState .ended (clockIdle t) else t

/-- An advance with its reactions taken in a given order. -/
def advanceIn (order : List Reaction) (s : State) : State :=
  order.foldl (react s.sound.ramp) (takeAdvance s)

/-- An advance: the order of the reactions is a free value (R31; log 7). -/
def advance (reactions : List Reaction) (s : State) : State :=
  advanceIn (shuffle reactions (Config.advanceOrder s.free)) (s.setFree (s.free + 1))

end Sys2Proof.Machine
end

