-- ==== Sys2Proof/Machine/Counting.lean ====
section
/-! DEFINITION. Machine/Counting.lean: the Count Unit's requests, LOAD LICENCE (R131, R132), DELETE LICENCE (R133), POP LOG
(R138), SET SCREEN (R143), and the completions of the Count Store (R139, R140, R142). -/

namespace Sys2Proof.Machine

/-- The two checks that every request writing the store begins with. -/
def storeChecks (s : State) : List Check :=
  [{ pass := storeNotFailed s, result := .storeFailed, detail := 1 },
   { pass := storeNotBusy s, result := .busy, detail := 2 }]

/-! ### LOAD LICENCE -/

/-- Check 6 of R131. -/
def licenceRangesOk (p : PlainLicence) (now : Nat) : Bool :=
  decide (1 ≤ p.granted) && decide (p.granted ≤ 65535) && decide (1 ≤ p.permille) && decide (p.permille ≤ 1000) &&
    decide (p.notBefore.toNat < p.notAfter.toNat) && decide (now < p.notAfter.toNat)

/-- Check 7 of R131: the slot is EMPTY or holds the same licence id. -/
def sameLicence (x : LicenceSlot) (p : PlainLicence) : Bool :=
  match licenceOf x with
  | none => true
  | some l => l.licenceId == p.licenceId

/-- The showings already counted in a slot (R132). -/
def usedOf (x : LicenceSlot) : Nat :=
  match licenceOf x with
  | none => 0
  | some l => l.used

/-- The checks of R131. -/
def licenceChecks (index : Fin 8) (p : PlainLicence) (check : BitVec 32) (s : State) : List Check :=
  let slot := s.count.ram.licences[index]
  storeChecks s ++
  [{ pass := s.count.reserved != some index, result := .refusedState, detail := 3 },
   { pass := s.secure.valid, result := .refusedState, detail := 4 },
   { pass := p.check == check, result := .keyWrap, detail := 5 },
   { pass := licenceRangesOk p s.secure.time, result := .refusedValue, detail := 6 },
   { pass := sameLicence slot p, result := .refusedState, detail := 7 },
   { pass := decide (usedOf slot ≤ p.granted), result := .refusedValue, detail := 8 }]

/-- The slot that an unwrapped licence makes, `used` carried forward (R132). -/
def slotOfLicence (p : PlainLicence) (used : Nat) : LicenceSlot :=
  .active { licenceId := p.licenceId, compositionId := p.compositionId, granted := p.granted,
            remaining := p.granted - used, used := used, notBefore := p.notBefore.toNat, notAfter := p.notAfter.toNat,
            permille := p.permille, screenId := p.screenId }

/-- A slot of the RAM copy replaced, and its link write started (R132, R133, R139). -/
def writeSlot (index : Fin 8) (x : LicenceSlot) (s : State) : State :=
  startWrite (.slot index x) (setRam { s.count.ram with licences := vput s.count.ram.licences index x } s)

/-- An accepted LOAD LICENCE (R132). -/
def licenceLoaded (index : Fin 8) (p : PlainLicence) (s : State) : State :=
  answer .ok 0 (writeSlot index (slotOfLicence p (usedOf s.count.ram.licences[index])) s)

/-- LOAD_LICENCE (R131). -/
def execLoadLicence (index : Fin 8) (blob : Blob) (check : BitVec 32) (s : State) : Host.Outcome State Fault Refusal :=
  .next (onLink (packetLength 52) s fun s =>
    checked (licenceChecks index (Config.unwrapLicence blob) check s)
      (licenceLoaded index (Config.unwrapLicence blob)) s)

/-! ### DELETE LICENCE, POP LOG, SET SCREEN -/

/-- A slot is EMPTY. -/
def isEmptySlot : LicenceSlot → Bool
  | .empty => true
  | .active _ | .suspended _ => false

/-- A record of the log names the slot. -/
def logNames (log : List LogRecord) (slot : Fin 8) : Bool := log.any fun r => r.slot == slot

/-- The checks of R133. -/
def deleteChecks (index : Fin 8) (s : State) : List Check :=
  storeChecks s ++
  [{ pass := s.count.reserved != some index, result := .refusedState, detail := 3 },
   { pass := !logNames s.count.ram.log index, result := .refusedState, detail := 4 }]

/-- An accepted DELETE LICENCE (R133). -/
def licenceDeleted (index : Fin 8) (s : State) : State :=
  answer .ok 0 (if isEmptySlot s.count.ram.licences[index] then s else writeSlot index .empty s)

/-- DELETE_LICENCE (R133). -/
def execDeleteLicence (index : Fin 8) (s : State) : Host.Outcome State Fault Refusal :=
  .next (onLink (packetLength 0) s fun s => checked (deleteChecks index s) (licenceDeleted index) s)

/-- The oldest record has the number carried (R138). -/
def oldestIs (log : List LogRecord) (seq : Nat) : Bool :=
  match log with
  | [] => false
  | r :: _ => r.sequence == seq

/-- An accepted POP LOG (R138). -/
def logPopped (s : State) : State :=
  answer .ok 0
    (startWrite (.log s.count.ram.log.tail) (setRam { s.count.ram with log := s.count.ram.log.tail } s))

/-- POP_LOG (R138). -/
def execPopLog (seq : BitVec 64) (s : State) : Host.Outcome State Fault Refusal :=
  .next (onLink (packetLength 8) s fun s =>
    checked (storeChecks s ++ [{ pass := oldestIs s.count.ram.log seq.toNat, result := .refusedValue, detail := 3 }])
      logPopped s)

/-- An accepted SET SCREEN (R143). -/
def screenSet (id : BitVec 16) (s : State) : State :=
  answer .ok 0 (startWrite (.screen id) (setRam { s.count.ram with screenId := id } s))

/-- SET_SCREEN (R143). -/
def execSetScreen (id : BitVec 16) (s : State) : Host.Outcome State Fault Refusal :=
  .next (onLink (packetLength 2) s fun s =>
    checked (storeChecks s ++
        [{ pass := s.count.ram.screenId == 65535#16, result := .refusedState, detail := 3 },
         { pass := id != 65535#16, result := .refusedValue, detail := 4 }])
      (screenSet id) s)

/-! ### Completions -/

/-- The reload owed to a booth reset, made once no commit waits (R142). -/
def reloadIfDue (s : State) : State :=
  if s.count.reloadDue then loadRam (s.setCount { s.count with reloadDue := false }) else s

/-- What follows a successful completion: the waiting set's commit write, or READY (R139, R142). -/
def afterWrite (s : State) : State :=
  match s.count.waiting with
  | [] => reloadIfDue (s.setCount { s.count with status := .ready })
  | slots => startWrite (commitImage slots s.count.ram) (s.setCount { s.count with waiting := [] })

/-- A write completes (R139); no later failure falls together with a commit seen before it (log 30). -/
def storeCompletes (w : StoreWrite) (s : State) : State :=
  afterWrite (setEvent .storeDone (s.setCount { s.count with store := programWrite w s.count.store, commitSeen := false }))

/-- STORE_WRITE_COMPLETION (R139); with no write in flight it is no event of the part (log 5). -/
def execStoreWriteCompletion (s : State) : Host.Outcome State Fault Refusal :=
  .next (whenOn s fun s =>
    match s.count.status with
    | .busy w => storeCompletes w s
    | .ready | .failed => s)

/-- The store as a failed write leaves it (R140, R142): FAILED, every slot of the write and of the waiting set SUSPENDED. -/
def failedStore (w : StoreWrite) (s : State) : State :=
  setEvent .storeDone
    (s.setCount { s.count with
      ram := suspendSlots (commitSlots w ++ s.count.waiting) s.count.ram
      status := .failed, waiting := [], commitSeen := false, reloadDue := false })

/-- A commit of the same microsecond found the store FAILED already (R144): the order of the two is a free value (log 30). -/
def commitFoundFailed (s : State) : Bool := s.count.commitSeen && Config.failureFirst s.free

/-- A write fails (R140, R142).  STORE_FAIL is raised for the failure, and a second time for a commit that fell together with
it and found the store FAILED (R144; log 30). -/
def storeFails (w : StoreWrite) (s : State) : State :=
  let t := raiseFault s.sound.ramp .storeFail (failedStore w s)
  if commitFoundFailed s then raiseFault s.sound.ramp .storeFail t else t

/-- STORE_WRITE_FAILURE (R140); with no write in flight it is no event of the part (log 5). -/
def execStoreWriteFailure (s : State) : Host.Outcome State Fault Refusal :=
  .next (whenOn s fun s =>
    match s.count.status with
    | .busy w => storeFails w s
    | .ready | .failed => s)

end Sys2Proof.Machine
end

