-- ==== Sys2Proof/Machine/Keys.lean ====
section
/-! DEFINITION. Machine/Keys.lean: the Key Table and the Secure Clock: LOAD KEY (R61), PURGE KEY (R62), expiries (R63), the
tick (R65, R69), SET TIME (R67), TRIM TIME (R68). -/

namespace Sys2Proof.Machine

/-! ### Key slots -/

/-- The slot is EMPTY or EXPIRED (R61, check 1). -/
def slotFree : KeySlot → Bool
  | .empty | .expired _ => true
  | .loaded _ _ | .inUse _ _ | .lapsed _ _ _ => false

/-- The checks of R61. -/
def keyChecks (index : Fin 16) (k : PlainKey) (check : BitVec 32) (s : State) : List Check :=
  [{ pass := slotFree s.keys[index], result := .refusedState, detail := 1 },
   { pass := s.secure.valid, result := .refusedState, detail := 2 },
   { pass := k.check == check, result := .keyWrap, detail := 3 },
   { pass := k.kind.isSome, result := .refusedValue, detail := 4 },
   { pass := decide (k.notBefore.toNat < k.notAfter.toNat), result := .refusedValue, detail := 5 },
   { pass := decide (s.secure.time < k.notAfter.toNat), result := .refusedValue, detail := 6 }]

/-- The slot that an unwrapped key makes (R61); its kind has passed check 4. -/
def slotOfKey (k : PlainKey) : KeySlot :=
  .loaded { kind := k.kind.getD .picture, keyId := k.keyId, nonce := k.nonce, notBefore := k.notBefore.toNat,
            notAfter := k.notAfter.toNat } k.material

/-- LOAD_KEY (R61). -/
def execLoadKey (index : Fin 16) (blob : Blob) (check : BitVec 32) (s : State) : Host.Outcome State Fault Refusal :=
  .next (onLink (packetLength 52) s fun s =>
    checked (keyChecks index (Config.unwrapKey blob) check s)
      (fun s => answer .ok 0 (s.setKeys (vput s.keys index (slotOfKey (Config.unwrapKey blob))))) s)

/-- The slot may be purged (R62): it is not IN_USE and not LAPSED. -/
def slotPurgeable : KeySlot → Bool
  | .inUse _ _ | .lapsed _ _ _ => false
  | .empty | .loaded _ _ | .expired _ => true

/-- PURGE_KEY (R62). -/
def execPurgeKey (index : Fin 16) (s : State) : Host.Outcome State Fault Refusal :=
  .next (onLink (packetLength 0) s fun s =>
    checked [{ pass := slotPurgeable s.keys[index], result := .refusedState, detail := 1 }]
      (fun s => answer .ok 0 (s.setKeys (vput s.keys index .empty))) s)

/-- KEY_EXPIRY (R63): one slot's expiry, when it is due (log 5, log 9). -/
def execKeyExpiry (index : Fin 16) (s : State) : Host.Outcome State Fault Refusal :=
  .next (whenOn s fun s =>
    if s.secure.valid then s.setKeys (vput s.keys index (expireSlot s.secure.time (showReel s) s.keys[index])) else s)

/-! ### Secure Clock -/

/-- The trim year closed: elapsed and sum are 0 (R69). -/
def closeYear (c : SecureClock) : SecureClock := { c with yearOpen := false, elapsed := 0, trimSum := 0 }

/-- The trim year at a tick (R69). -/
def yearTick (c : SecureClock) : SecureClock :=
  if c.yearOpen then
    if Config.trimYear ≤ c.elapsed + 1 then closeYear c else { c with elapsed := c.elapsed + 1 }
  else c

/-- The Secure Clock at a tick (R65, R69); while TIME_INVALID it does not count. -/
def secureTicked (c : SecureClock) : SecureClock :=
  if c.valid then yearTick { c with time := satInc Config.max32 c.time } else c

/-- The backup domain has supply: the main supply's while that is present (R66). -/
def backupAlive (s : State) : Bool := s.power.on || s.power.backupHeld

/-- SECURE_TICK (R65): counted in the backup domain; the expiries it makes follow at once while the part has supply (R63). -/
def execSecureTick (s : State) : Host.Outcome State Fault Refusal :=
  .next (if backupAlive s then
      let t := (quiet s).setSecure (secureTicked s.secure)
      if s.power.on then expireKeys t else t
    else quiet s)

/-- TRIM_YEAR_CLOSE (R69): the closing tick closes the year within SECURE_TICK; by itself it acts on a year that has
run its length (log 9). -/
def execTrimYearClose (s : State) : Host.Outcome State Fault Refusal :=
  .next (if backupAlive s && s.secure.yearOpen && decide (Config.trimYear ≤ s.secure.elapsed) then
      (quiet s).setSecure (closeYear s.secure)
    else quiet s)

/-- SET_TIME (R67). -/
def execSetTime (t : BitVec 32) (s : State) : Host.Outcome State Fault Refusal :=
  .next (onLink (packetLength 4) s fun s =>
    checked [{ pass := !s.secure.valid, result := .refusedState, detail := 1 }]
      (fun s => answer .ok 0
        (s.setSecure { valid := true, time := t.toNat, yearOpen := false, elapsed := 0, trimSum := 0 })) s)

/-- A value clamped to a range. -/
def clampInt (lo hi v : Int) : Int := max lo (min v hi)

/-- The trim year opened if it is CLOSED (R68 step 1). -/
def openYear (c : SecureClock) : SecureClock :=
  if c.yearOpen then c else { c with yearOpen := true, elapsed := 0, trimSum := 0 }

/-- The applied delta (R68 step 2). -/
def appliedDelta (c : SecureClock) (d : Int) : Int :=
  clampInt (-(c.time : Int)) ((Config.max32 : Int) - (c.time : Int)) (clampInt (-360) 360 (c.trimSum + d) - c.trimSum)

/-- The Secure Clock trimmed by `a` (R68 step 3). -/
def trimmed (c : SecureClock) (a : Int) : SecureClock :=
  { c with time := ((c.time : Int) + a).toNat, trimSum := c.trimSum + a }

/-- An accepted TRIM TIME (R68), with the expiries it makes (R63). -/
def timeTrimmed (d : BitVec 16) (s : State) : State :=
  let c := openYear s.secure
  let a := appliedDelta c d.toInt
  answerWith .ok 0 a (expireKeys (s.setSecure (trimmed c a)))

/-- TRIM_TIME (R68). -/
def execTrimTime (d : BitVec 16) (s : State) : Host.Outcome State Fault Refusal :=
  .next (onLink (packetLength 2) s fun s =>
    checked [{ pass := s.secure.valid, result := .refusedState, detail := 1 }] (timeTrimmed d) s)

end Sys2Proof.Machine
end

