-- ==== Sys2Proof/Machine/ShowClock.lean ====
section
/-! DEFINITION. Machine/ShowClock.lean: the Show Clock: leaving IDLE (R23), the anchor edge (R24), the anchor timeout (R25), the
judgement of an edge (R26, R29), the miss (R27, R28), the internal source (R30), and WRITE_CLOCK (R21). -/

namespace Sys2Proof.Machine

/-- The edit rate of the Show Record; 24/1 while it is absent (log 20). -/
def showRate (s : State) : EditRate :=
  match s.ctl.record with
  | some r => r.editRate
  | none => .r24

/-- The anchor taken at a time: k is 0 and E follows (R20, R24, R26). -/
def anchorAt (s : State) (t : Time) (c : Clock) : Clock :=
  { c with anchor := t, unitCount := 0, expected := expectedTime (showRate s) t 0 }

/-- The unit count carried on by one, the anchor kept, and E from both (R20, R27, R30). -/
def nextUnit (s : State) (c : Clock) : Clock :=
  { c with
    unitCount := satInc Config.maxUnit c.unitCount
    expected := expectedTime (showRate s) c.anchor (satInc Config.maxUnit c.unitCount) }

/-! ### Leaving IDLE -/

/-- What START alone sets to 0 (R23). -/
def clearClockCounts (c : Clock) : Clock :=
  { c with accepted := 0, glitches := 0, missed := 0, period := 0, span := 0 }

/-- The Show Clock leaves IDLE at START or RESUME (R23). -/
def clockLeaves (s : State) : State :=
  let c := { s.clock with consecutive := 0, lastAccepted := none }
  if isInternal s then s.setClock { anchorAt s c.timebase c with substate := .tracking }
  else s.setClock { c with
    substate := .awaitingAnchor
    anchorDeadline := some (deadlineFrom (showRate s) c.lossLimit c.timebase) }

/-! ### Edges -/

/-- The edge is counted (R19). -/
def countEdge (s : State) : State :=
  s.setClock { s.clock with edges := satInc Config.max32 s.clock.edges, edgeSeen := true }

/-- An active SYNC_LOSS condition is withdrawn (R28). -/
def syncFound (s : State) : State := if s.clock.syncLoss then withdraw .syncLoss s else s

/-- The anchor edge (R24). -/
def anchorEdge (s : State) : State :=
  syncFound (s.setClock { anchorAt s s.clock.timebase s.clock with
    substate := .tracking
    anchorDeadline := none
    lastAccepted := some s.clock.timebase
    accepted := satInc Config.max32 s.clock.accepted
    consecutive := 0 })

/-- A glitch is counted (R26). -/
def glitch (s : State) : State :=
  s.setClock { s.clock with glitches := satInc Config.max32 s.clock.glitches }

/-- The measured period at an accepted edge (R29). -/
def measuredPeriod (c : Clock) : Nat := Nat.min (c.timebase - c.lastAccepted.getD c.anchor).toNat Config.max32

/-- The Show Clock at an accepted edge (R26, R29). -/
def acceptClock (s : State) : Clock :=
  { anchorAt s s.clock.timebase s.clock with
    period := measuredPeriod s.clock
    span := satInc Config.max8 s.clock.unitCount
    lastAccepted := some s.clock.timebase
    accepted := satInc Config.max32 s.clock.accepted
    consecutive := 0 }

/-- An accepted edge (R26): the clock's own change, the withdrawal of SYNC_LOSS, and the advance. -/
def acceptEdge (s : State) : State := advance blockReactions (syncFound (s.setClock (acceptClock s)))

/-- The Show Clock at a miss (R27). -/
def missClock (s : State) : Clock :=
  { nextUnit s s.clock with
    missed := satInc Config.max32 s.clock.missed
    consecutive := satInc Config.max8 s.clock.consecutive }

/-- The miss raises SYNC_LOSS: it makes the consecutive-miss count equal to L (R28). -/
def missRaises (s : State) : Bool := satInc Config.max8 s.clock.consecutive == s.clock.lossLimit

/-- A miss (R27, R28). -/
def miss (s : State) : State :=
  advance (if missRaises s then .syncLoss :: blockReactions else blockReactions) (s.setClock (missClock s))

/-- A late edge after its miss: a glitch while the clock still tracks, else counted only (R26; log 19). -/
def lateEdge (s : State) : State :=
  let t := miss s
  if t.clock.substate = .tracking then glitch t else t

/-- The judgement of an edge in TRACKING with the projector (R26). -/
def judgeEdge (s : State) : State :=
  if timeBefore s.clock.timebase (s.clock.expected - BitVec.ofNat 48 s.clock.window) then glitch s
  else if timeBefore (s.clock.expected + BitVec.ofNat 48 s.clock.window) s.clock.timebase then lateEdge s
  else acceptEdge s

/-- A rising edge of FSYNC_IN at the Show Clock (R19, R22, R24, R26, R30). -/
def clockEdge (s : State) : State :=
  match s.clock.substate with
  | .idle => countEdge s
  | .awaitingAnchor => anchorEdge (countEdge s)
  | .tracking => if isInternal s then countEdge s else judgeEdge (countEdge s)

/-- FSYNC_IN_EDGE (R19): not counted while BRST_N is held low (R35), and once only in a microsecond. -/
def execFsyncInEdge (s : State) : Host.Outcome State Fault Refusal :=
  .next (whenOn s fun s => if s.power.brstLow || s.clock.edgeSeen then s else clockEdge s)

/-! ### Expiries -/

/-- WINDOW_EXPIRY (R27); without effect when it is not due (log 5). -/
def execWindowExpiry (s : State) : Host.Outcome State Fault Refusal :=
  .next (whenOn s fun s => if windowDue s then miss s else s)

/-- The anchor timeout (R25): no further deadline is set. -/
def anchorExpires (s : State) : State :=
  raiseCondition s.sound.ramp .syncLoss (s.setClock { s.clock with anchorDeadline := none })

/-- ANCHOR_TIMEOUT (R25); without effect when it is not due (log 5). -/
def execAnchorTimeout (s : State) : Host.Outcome State Fault Refusal :=
  .next (whenOn s fun s => if anchorDue s then anchorExpires s else s)

/-- The internal expiry (R30). -/
def internalExpires (s : State) : State := advance blockReactions (s.setClock (nextUnit s s.clock))

/-- INTERNAL_EXPIRY (R30); without effect when it is not due (log 5). -/
def execInternalExpiry (s : State) : Host.Outcome State Fault Refusal :=
  .next (whenOn s fun s => if internalDue s then internalExpires s else s)

/-! ### The CLOCK record -/

/-- The checks of a CLOCK write (R21); no detail is named, so it is 0 (R159).  R21 gives its two refusals no order: a record out of
range in RUNNING or HELD is answered REFUSED_STATE, the model's choice (log 31). -/
def clockChecks (window : BitVec 16) (lossLimit : Byte) (s : State) : List Check :=
  [{ pass := s.ctl.state != .running && s.ctl.state != .held, result := .refusedState, detail := 0 },
   { pass := decide (100 ≤ window.toNat) && decide (window.toNat ≤ 4000) && decide (1 ≤ lossLimit.toNat) &&
       decide (lossLimit.toNat ≤ 15), result := .refusedValue, detail := 0 }]

/-- WRITE_CLOCK (R21). -/
def execWriteClock (window : BitVec 16) (lossLimit : Byte) (s : State) : Host.Outcome State Fault Refusal :=
  .next (onLink (packetLength 64) s fun s =>
    checked (clockChecks window lossLimit s)
      (fun s => answer .ok 0
        (s.setClock { s.clock with window := window.toNat, lossLimit := lossLimit.toNat })) s)

end Sys2Proof.Machine
end

