-- ==== Sys2Proof/Machine/Show.lean ====
section
/-! DEFINITION. Machine/Show.lean: the Show Controller's requests: LOAD SHOW (R39, R40), PRIME (R43, R44), PRIME PREVIEW (R46),
START (R47), HOLD (R48), RESUME (R49), STOP (R53), UNLOAD (R54). -/

namespace Sys2Proof.Machine

/-! ### LOAD SHOW -/

/-- A reel's duration is in range. -/
def durationOk (r : ReelWrite) : Bool := decide (1 ≤ r.duration.toNat) && decide (r.duration.toNat ≤ 1048575)

/-- A reel's region indexes are in range. -/
def reelRegionsOk (r : ReelWrite) : Bool := decide (r.pictureRegion.toNat < 24) && decide (r.soundRegion.toNat < 24)

/-- A reel's key slots are in range. -/
def reelKeysOk (r : ReelWrite) : Bool := decide (r.pictureKey.toNat < 16) && decide (r.soundKey.toNat < 16)

/-- The show state is EMPTY or LOADED (R6 check 1, R39 check 1). -/
def tableOpen (s : State) : Bool := !isPrimed s

/-- The checks of R39. -/
def showChecks (w : ShowWrite) (s : State) : List Check :=
  [{ pass := tableOpen s, result := .refusedState, detail := 1 },
   { pass := decide (w.licenceSlot.toNat < 8), result := .refusedValue, detail := 2 },
   { pass := (editRateOf w.editRate).isSome, result := .refusedValue, detail := 3 },
   { pass := (sampleRateOf w.sampleRate).isSome, result := .refusedValue, detail := 4 },
   { pass := decide (1 ≤ w.channels.toNat) && decide (w.channels.toNat ≤ 16), result := .refusedValue, detail := 5 },
   { pass := (syncSourceOf w.sync).isSome, result := .refusedValue, detail := 6 },
   { pass := decide (w.lead.toNat ≤ 255), result := .refusedValue, detail := 7 },
   { pass := decide (w.trail.toNat ≤ 15) || w.trail.toNat == 255, result := .refusedValue, detail := 8 },
   { pass := decide (1 ≤ w.reels.length) && decide (w.reels.length ≤ 16), result := .refusedValue, detail := 9 },
   { pass := w.reels.all durationOk, result := .refusedValue, detail := 10 },
   { pass := w.reels.all reelRegionsOk, result := .refusedValue, detail := 11 },
   { pass := w.reels.all reelKeysOk, result := .refusedValue, detail := 12 }]

/-- A reel as stored. -/
def reelOfWrite (r : ReelWrite) : Reel where
  duration := r.duration.toNat
  pictureRegion := Fin.ofNat 24 r.pictureRegion.toNat
  soundRegion := Fin.ofNat 24 r.soundRegion.toNat
  pictureKey := Fin.ofNat 16 r.pictureKey.toNat
  soundKey := Fin.ofNat 16 r.soundKey.toNat

/-- The record as stored, lead and trail resolved (R40).  It is used only when every check of R39 passes. -/
def recordOfWrite (w : ShowWrite) : ShowRecord where
  compositionId := w.compositionId
  licenceSlot := Fin.ofNat 8 w.licenceSlot.toNat
  editRate := (editRateOf w.editRate).getD .r24
  sampleRate := (sampleRateOf w.sampleRate).getD .hz48000
  channels := w.channels.toNat
  sync := (syncSourceOf w.sync).getD .projector
  lead := if w.lead.toNat = 0 then 48 else w.lead.toNat
  trail := if w.trail.toNat = 255 then 2 else w.trail.toNat
  reels := w.reels.map reelOfWrite

/-- An accepted LOAD SHOW (R40): the SHOW_STATE event only from EMPTY. -/
def showLoaded (w : ShowWrite) (s : State) : State :=
  let t := flushLanes (s.setCtl { s.ctl with
    state := .loaded, mark := .none, record := some (recordOfWrite w), position := 0, committed := false, commitUnit := 0 })
  answer .ok 0 (if s.ctl.state = .empty then setEvent .showState t else t)

/-- LOAD_SHOW (R39). -/
def execLoadShow (w : ShowWrite) (s : State) : Host.Outcome State Fault Refusal :=
  .next (onLink (packetLength (16 + 8 * w.reels.length)) s fun s => checked (showChecks w s) (showLoaded w) s)

/-! ### PRIME -/

/-- Wrong show state (R42). -/
def stateCheck (st : ShowState) (s : State) : Check :=
  { pass := s.ctl.state == st, result := .refusedState, detail := 1 }

/-- The slot is ACTIVE. -/
def isActive : LicenceSlot → Bool
  | .active _ => true
  | .empty | .suspended _ => false

/-- Checks 1 to 9 of R43. -/
def primeChecks (r : ShowRecord) (s : State) : List Check :=
  let slot := s.count.ram.licences[r.licenceSlot]
  let l := slotLicence slot
  let screen := s.count.ram.screenId
  [stateCheck .loaded s,
   { pass := s.secure.valid, result := .refusedState, detail := 2 },
   { pass := isActive slot, result := .refusedState, detail := 3 },
   { pass := l.compositionId == r.compositionId, result := .refusedValue, detail := 4 },
   { pass := windowHolds l.notBefore l.notAfter s.secure.time, result := .refusedValue, detail := 5 },
   { pass := decide (1 ≤ l.remaining), result := .refusedState, detail := 6 },
   { pass := l.screenId == screen && screen != 65535#16, result := .refusedValue, detail := 7 },
   { pass := decide (s.count.ram.log.length < 64), result := .refusedState, detail := 8 },
   { pass := storeNotFailed s, result := .refusedState, detail := 9 }]

/-- A region entry is VALID, of an essence kind, for a reel (checks 10 and 12). -/
def essenceRegion (e : RegionEntry) (kind : RegionKind) (reel : Nat) : Bool :=
  e.valid && e.kind == kind && e.reel == reel

/-- A key slot has a kind (checks 14 and 17). -/
def slotKind (x : KeySlot) : Option EssenceKind := (keyFieldsOf x).map (·.kind)

/-- A key slot is LOADED (checks 15 and 18). -/
def isLoadedKey : KeySlot → Bool
  | .loaded _ _ => true
  | .empty | .inUse _ _ | .lapsed _ _ _ | .expired _ => false

/-- A key slot's window holds now (checks 16 and 19). -/
def keyWindowHolds (x : KeySlot) (now : Nat) : Bool :=
  match keyFieldsOf x with
  | some f => windowHolds f.notBefore f.notAfter now
  | none => false

/-- Checks 10 to 19 of R43 for reel `i`. -/
def reelChecks (r : ShowRecord) (s : State) (i : Nat) (e : Reel) : List Check :=
  let picture := s.path.regions[e.pictureRegion]
  let sound := s.path.regions[e.soundRegion]
  let pictureKey := s.keys[e.pictureKey]
  let soundKey := s.keys[e.soundKey]
  [{ pass := essenceRegion picture .pictureEssence i, result := .refusedValue, detail := 10 },
   { pass := decide (e.duration * picture.stride ≤ picture.size), result := .refusedValue, detail := 11 },
   { pass := essenceRegion sound .soundEssence i, result := .refusedValue, detail := 12 },
   { pass := decide (e.duration * samplesPerUnit r ≤ sound.size), result := .refusedValue, detail := 13 },
   { pass := slotKind pictureKey == some .picture, result := .refusedValue, detail := 14 },
   { pass := isLoadedKey pictureKey, result := .refusedState, detail := 15 },
   { pass := keyWindowHolds pictureKey s.secure.time, result := .refusedValue, detail := 16 },
   { pass := slotKind soundKey == some .sound, result := .refusedValue, detail := 17 },
   { pass := isLoadedKey soundKey, result := .refusedState, detail := 18 },
   { pass := keyWindowHolds soundKey s.secure.time, result := .refusedValue, detail := 19 }]

/-- The per-reel checks of every reel, from reel `i` on, in order. -/
def allReelChecks (r : ShowRecord) (s : State) : Nat → List Reel → List Check
  | _, [] => []
  | i, e :: es => reelChecks r s i e ++ allReelChecks r s (i + 1) es

/-- The commit unit (R134). -/
def commitUnitOf (total permille : Nat) : Nat := Nat.max 1 (total * permille / 1000)

/-- What PRIME and PRIME PREVIEW set alike at the Unpack Engine and the Sound Stage (R44, R46, R86, R98). -/
def primeBlocks (s : State) : State :=
  unityRamp (clearSoundShow (clearUnpackShow (withdraw .soundStarved (withdraw .pictureStarved s))))

/-- The Show Controller at PRIME and PRIME PREVIEW (R44, R46). -/
def primeCtl (mark : Mark) (commitUnit : Nat) (s : State) : State :=
  setShowState .primed (s.setCtl { s.ctl with mark := mark, position := 0, committed := false, commitUnit := commitUnit })

/-- An accepted PRIME (R44). -/
def showPrimed (r : ShowRecord) (s : State) : State :=
  let permille := (slotLicence s.count.ram.licences[r.licenceSlot]).permille
  let t := primeBlocks (primeCtl .full (commitUnitOf (totalDuration r) permille) s)
  answer .ok 0
    ((t.setKeys (mapNamedKeys takeSlot r t.keys)).setCount { t.count with reserved := some r.licenceSlot, blanked := 0 })

/-- PRIME (R43, R44).  Without a record the state is not LOADED. -/
def execPrime (s : State) : Host.Outcome State Fault Refusal :=
  .next (onLink (packetLength 0) s fun s =>
    match s.ctl.record with
    | none => answer .refusedState 1 s
    | some r => checked (primeChecks r s ++ allReelChecks r s 0 r.reels) (showPrimed r) s)

/-- An accepted PRIME PREVIEW (R46). -/
def previewPrimed (s : State) : State :=
  let t := primeBlocks (primeCtl .preview 0 s)
  answer .ok 0 (t.setCount { t.count with blanked := 0 })

/-- PRIME_PREVIEW (R46). -/
def execPrimePreview (s : State) : Host.Outcome State Fault Refusal :=
  .next (onLink (packetLength 0) s fun s => checked [stateCheck .loaded s] previewPrimed s)

/-! ### START, HOLD, RESUME -/

/-- The output condition is not BLANK_LATCHED (R47, R49). -/
def unlatchedCheck (s : State) : Check :=
  { pass := !anyLatched s, result := .refusedState, detail := 2 }

/-- An accepted START (R47, R110). -/
def showStarted (s : State) : State :=
  let t := setShowState .running (s.setCtl { s.ctl with position := 0 })
  answer .ok 0 (activateLanes 0 (showTotal s) (clockLeaves (t.setClock (clearClockCounts t.clock))))

/-- START (R47). -/
def execStart (s : State) : Host.Outcome State Fault Refusal :=
  .next (onLink (packetLength 0) s fun s => checked [stateCheck .primed s, unlatchedCheck s] showStarted s)

/-- HOLD (R48). -/
def execHold (s : State) : Host.Outcome State Fault Refusal :=
  .next (onLink (packetLength 0) s fun s => checked [stateCheck .running s] (fun s => answer .ok 0 (holdShow s.sound.ramp s)) s)

/-- An accepted RESUME (R49, R94). -/
def showResumed (s : State) : State :=
  answer .ok 0 (startRamp s.sound.ramp .unity (clockLeaves (setShowState .running s)))

/-- RESUME (R49). -/
def execResume (s : State) : Host.Outcome State Fault Refusal :=
  .next (onLink (packetLength 0) s fun s => checked [stateCheck .held s, unlatchedCheck s] showResumed s)

/-! ### STOP, UNLOAD -/

/-- The show's fault conditions are withdrawn and reported (R53). -/
def withdrawShow (s : State) : State :=
  withdraw .keyLapsed (withdraw .soundStarved (withdraw .pictureStarved (withdraw .syncLoss s)))

/-- The key slots of a full show are released (R53). -/
def releaseKeys (s : State) : State :=
  match s.ctl.record with
  | some r => if isFull s then s.setKeys (mapNamedKeys releaseSlot r s.keys) else s
  | none => s

/-- The Show Controller at STOP (R53): the committed flag and the commit unit are kept. -/
def stopCtl (s : State) : State :=
  setShowState .loaded (s.setCtl { s.ctl with mark := .none, position := 0 })

/-- An accepted STOP (R53, R86, R90, R98). -/
def showStopped (s : State) : State :=
  let t := clearSoundShow (clearUnpackShow (activateMask (flushLanes (clockIdle (stopCtl (releaseKeys s))))))
  answer .ok 0 (withdrawShow (t.setCount { t.count with reserved := none }))

/-- STOP (R53). -/
def execStop (s : State) : Host.Outcome State Fault Refusal :=
  .next (onLink (packetLength 0) s fun s => checked [{ pass := isPrimed s, result := .refusedState, detail := 1 }] showStopped s)

/-- An accepted UNLOAD (R54). -/
def showUnloaded (s : State) : State :=
  answer .ok 0
    (setShowState .empty (s.setCtl { s.ctl with record := none, position := 0, committed := false, commitUnit := 0 }))

/-- UNLOAD (R54). -/
def execUnload (s : State) : Host.Outcome State Fault Refusal :=
  .next (onLink (packetLength 0) s fun s => checked [stateCheck .loaded s] showUnloaded s)

end Sys2Proof.Machine
end

