-- ==== Sys2Proof/Machine/Records.lean ====
section
/-! DEFINITION. Machine/Records.lean: the bytes of every record as read (R158 to R160, R164, R165, Tables 11-10 and 11-12 to 11-22).
A field whose value is absent or none is returned as zero. -/

namespace Sys2Proof.Machine

/-! ### Codes -/

/-- Code of a region kind (Table 11-13). -/
def regionKindCode : RegionKind → Byte
  | .openMemory => 0#8 | .pictureEssence => 1#8 | .soundEssence => 2#8 | .frame => 3#8 | .plane => 4#8 | .cue => 5#8

/-- Code of an edit rate (Table 11-16). -/
def editRateCode : EditRate → Byte
  | .r24 => 0#8 | .r25 => 1#8 | .r30 => 2#8 | .r48 => 3#8 | .r50 => 4#8 | .r60 => 5#8 | .r24000over1001 => 6#8

/-- Code of a sample rate (Table 11-16). -/
def sampleRateCode : SampleRate → Byte
  | .hz48000 => 0#8 | .hz96000 => 1#8

/-- Code of a sync source (Table 11-16). -/
def syncSourceCode : SyncSource → Byte
  | .projector => 0#8 | .internal => 1#8

/-- Code of a filter action (Table 11-17). -/
def filterActionCode : FilterAction → Byte
  | .laneA => 0#8 | .laneB => 1#8 | .reject => 2#8

/-- Code of a policy (Table 11-18). -/
def policyCode : Policy → Byte
  | .ignore => 0#8 | .report => 1#8 | .timed => 2#8 | .latch => 3#8

/-- Code of a show state (Table 11-19). -/
def showStateCode : ShowState → Byte
  | .empty => 0#8 | .loaded => 1#8 | .primed => 2#8 | .running => 3#8 | .held => 4#8 | .ended => 5#8

/-- Code of a mark (Table 11-19). -/
def markCode : Mark → Byte
  | .none => 0#8 | .full => 1#8 | .preview => 2#8

/-- Code of an output condition (Tables 11-10, 11-19). -/
def outputCode : OutputCondition → Byte
  | .openOutput => 0#8 | .blankTimed => 1#8 | .blankLatched => 2#8

/-- Code of the Count Store's state (Table 11-19). -/
def storeCode : StoreStatus → Byte
  | .ready => 0#8 | .busy _ => 1#8 | .failed => 2#8

/-- Code of a unit-check record's cause (Table 11-19). -/
def unitCauseCode : UnitCause → Byte
  | .number => 0#8 | .length => 1#8 | .crc => 2#8

/-- Code of a sub-state (Table 11-21). -/
def substateCode : Substate → Byte
  | .idle => 0#8 | .awaitingAnchor => 1#8 | .tracking => 2#8

/-- Code of a result (Table 11-3). -/
def resultCode : LinkResult → Byte
  | .ok => 0#8 | .badCrc => 1#8 | .badTable => 2#8 | .badIndex => 3#8 | .badLength => 4#8 | .refusedState => 5#8
  | .refusedValue => 6#8 | .busy => 7#8 | .keyWrap => 8#8 | .storeFailed => 9#8

/-- Code of an essence kind (Table 11-14). -/
def essenceKindCode : EssenceKind → Byte
  | .picture => 1#8 | .sound => 2#8

/-- One number as a byte. -/
def oneByte (n : Nat) : Byte := BitVec.ofNat 8 n

/-- Bytes that read as zero. -/
def zeroBytes (n : Nat) : List Byte := List.replicate n 0#8

/-- A byte of flags, bit 0 first. -/
def flagBits (fs : List Bool) : Byte := oneByte (fs.foldr (fun b acc => 2 * acc + if b then 1 else 0) 0)

/-- The two bytes of a mask over the nine kinds, bit i kind index i. -/
def kindMask (f : FaultKind → Bool) : List Byte :=
  beBytes 2 ((allKinds.map f).foldr (fun b acc => 2 * acc + if b then 1 else 0) 0)

/-- A 16-bit two's complement number. -/
def signedBytes (v : Int) : List Byte := beBytes 2 (BitVec.ofInt 16 v).toNat

/-! ### Records -/

/-- IDENT (R164, Table 11-12). -/
def identRecord (s : State) : List Byte :=
  beBytes 2 640 ++ [1#8, oneByte (linkAddress s), 24#8, 16#8, 8#8, 64#8, 2#8, 16#8, 8#8, 9#8] ++ zeroBytes 4

/-- REGION (Table 11-13). -/
def regionRecordBytes (e : RegionEntry) : List Byte :=
  [flagByte e.valid, regionKindCode e.kind, e.writers, oneByte e.reel] ++ beBytes 5 e.base ++ beBytes 4 e.size ++
    beBytes 2 e.stride ++ beBytes 2 e.width ++ beBytes 2 e.height ++ beBytes 2 e.pitch ++
    [flagByte (e.range == .limited), flagByte e.isProtected] ++ zeroBytes 9

/-- State code of a key slot (Table 11-14). -/
def keyStateCode : KeySlot → Byte
  | .empty => 0#8 | .loaded _ _ => 1#8 | .inUse _ _ => 2#8 | .lapsed _ _ _ => 3#8 | .expired _ => 4#8

/-- Grace reel of a key slot, zero where it is absent. -/
def graceOf : KeySlot → Nat
  | .lapsed _ _ g => g
  | .empty | .loaded _ _ | .inUse _ _ | .expired _ => 0

/-- KEY as read (R59, Table 11-14). -/
def keyRecord (x : KeySlot) : List Byte :=
  match keyFieldsOf x with
  | none => zeroBytes 40
  | some f =>
    [keyStateCode x, essenceKindCode f.kind, oneByte (graceOf x), 0#8] ++ beBytes 8 f.keyId.toNat ++
      beBytes 8 f.nonce.toNat ++ beBytes 4 f.notBefore ++ beBytes 4 f.notAfter ++ zeroBytes 12

/-- State code of a licence slot (Table 11-15). -/
def licenceStateCode : LicenceSlot → Byte
  | .empty => 0#8 | .active _ => 1#8 | .suspended _ => 2#8

/-- LICENCE as read (R129, R130, Table 11-15). -/
def licenceRecord (x : LicenceSlot) (reserved : Bool) : List Byte :=
  let l := slotLicence x
  [licenceStateCode x, flagByte reserved] ++ beBytes 4 l.licenceId.toNat ++ beBytes 8 l.compositionId.toNat ++
    beBytes 2 l.granted ++ beBytes 2 l.remaining ++ beBytes 2 l.used ++ beBytes 4 l.notBefore ++ beBytes 4 l.notAfter ++
    beBytes 2 l.permille ++ beBytes 2 l.screenId.toNat ++ zeroBytes 16

/-- One reel of a SHOW record as read (Table 11-16). -/
def reelRecord (r : Reel) : List Byte :=
  beBytes 3 r.duration ++
    [oneByte r.pictureRegion.val, oneByte r.soundRegion.val, oneByte r.pictureKey.val, oneByte r.soundKey.val, 0#8]

/-- SHOW (R37, Table 11-16): reel count 0 and zeros while the record is absent. -/
def showRecord (s : State) : List Byte :=
  match s.ctl.record with
  | none => zeroBytes 16
  | some r =>
    beBytes 8 r.compositionId.toNat ++
      [oneByte r.licenceSlot.val, editRateCode r.editRate, sampleRateCode r.sampleRate, oneByte r.channels,
       syncSourceCode r.sync, oneByte r.lead, oneByte r.trail, oneByte r.reels.length] ++ r.reels.flatMap reelRecord

/-- FILTER, index 0 to 7 (Table 11-17). -/
def filterRecord (f : Filter) : List Byte :=
  [flagByte f.enabled, filterActionCode f.action] ++ beBytes 2 f.matchValue.toNat ++ beBytes 2 f.mask.toNat ++ zeroBytes 2

/-- FILTER, index 8 (R113, Table 11-17). -/
def intakeRecord (c : CueIntake) : List Byte :=
  [filterActionCode c.defaultAction] ++ zeroBytes 3 ++ beBytes 4 c.counts.taken ++ beBytes 4 c.counts.partialLines ++
    beBytes 4 c.counts.malformed ++ beBytes 4 c.counts.rejected ++ beBytes 4 c.counts.ignored

/-- The active cue's part of a lane record: bytes 4 to 18. -/
def activeBytes (a : Option ActiveCue) : List Byte :=
  match a with
  | none => zeroBytes 15
  | some a =>
    beBytes 4 a.cue.number ++ beBytes 3 a.cue.inUnit ++ beBytes 3 a.cue.outUnit ++ [oneByte a.cue.fadeDown] ++
      match a.update with
      | none => zeroBytes 4
      | some u => [oneByte u.fadeDown] ++ beBytes 3 u.outUnit

/-- The head's part of a lane record: bytes 20 to 26. -/
def headBytes (queue : List Cue) : List Byte :=
  match queue with
  | [] => zeroBytes 7
  | c :: _ => beBytes 4 c.number ++ beBytes 3 c.inUnit

/-- The active cue holds a pending update. -/
def hasUpdate (a : Option ActiveCue) : Bool := (a.bind (·.update)).isSome

/-- FILTER, index 9 and 10: a lane record (R113, Table 11-17). -/
def laneRecord (x : Lane) : List Byte :=
  [oneByte x.lowMark, oneByte x.queue.length, flagBits [x.active.isSome, hasUpdate x.active, !x.queue.isEmpty], 0#8] ++
    activeBytes x.active ++ [0#8] ++ headBytes x.queue ++ [0#8] ++
    beBytes 2 x.counts.inserted ++ beBytes 2 x.counts.replaced ++ beBytes 2 x.counts.updated ++ beBytes 2 x.counts.late ++
    beBytes 2 x.counts.overrun ++ beBytes 2 x.counts.skipped ++ beBytes 2 x.counts.cut ++ beBytes 2 x.counts.retired ++
    zeroBytes 4

/-- Bytes 3 to 5 of a POLICY record, by the kind (Table 11-18). -/
def policyFurther (s : State) (k : FaultKind) : List Byte :=
  match k with
  | .pictureStarved => [oneByte s.unpack.limit, 0#8, 0#8]
  | .soundStarved => [oneByte s.sound.limit] ++ beBytes 2 s.sound.rampLength
  | .watchdog => [flagByte s.sup.watchdog.enabled, oneByte s.sup.watchdog.interval, 0#8]
  | .syncLoss | .unitCheck | .keyLapsed | .cueOverrun | .access | .storeFail => zeroBytes 3

/-- POLICY (Table 11-18). -/
def policyRecord (s : State) (k : FaultKind) : List Byte :=
  let e := policyOfKind s k
  [policyCode e.policy, oneByte e.blank, flagByte e.lineFlag] ++ policyFurther s k ++ zeroBytes 2

/-- A LOG record (Table 11-10). -/
def logRecord (r : LogRecord) : List Byte :=
  beBytes 8 r.sequence ++ [oneByte r.slot.val] ++ beBytes 4 r.licenceId.toNat ++ beBytes 8 r.compositionId.toNat ++
    beBytes 4 r.commitTime ++ beBytes 3 r.duration ++ [outputCode r.outputAtCommit] ++ beBytes 2 r.blanked

/-- EVENTS (R163, Table 11-20). -/
def eventsRecord (s : State) : List Byte :=
  [s.link.eventPending.setWidth 8, s.link.eventEnables.setWidth 8, s.link.eventSelects.setWidth 8, 0#8]

/-- CLOCK (2.8, Table 11-21). -/
def clockRecord (s : State) : List Byte :=
  let c := s.clock
  [substateCode c.substate, flagByte c.lastAccepted.isSome] ++ beBytes 6 c.timebase.toNat ++ beBytes 6 c.anchor.toNat ++
    beBytes 3 c.unitCount ++ beBytes 6 c.expected.toNat ++ beBytes 2 c.window ++ [oneByte c.lossLimit] ++
    beBytes 4 c.edges ++ beBytes 4 c.accepted ++ beBytes 4 c.glitches ++ beBytes 4 c.missed ++ [oneByte c.consecutive] ++
    beBytes 6 (c.lastAccepted.getD 0#48).toNat ++ beBytes 4 c.period ++ [oneByte c.span] ++ zeroBytes 10

/-- LINK (R159, Table 11-22). -/
def linkRecord (s : State) : List Byte :=
  [resultCode s.link.result, oneByte s.link.detail] ++ signedBytes s.link.delta

/-! ### STATUS (Table 11-19), by its parts -/

/-- Bytes 0 to 16: the show. -/
def statusShow (s : State) : List Byte :=
  [showStateCode s.ctl.state, markCode s.ctl.mark,
   flagBits [s.ctl.committed, s.unpack.frontier.isSome, s.sound.frontier.isSome, s.unpack.unitCheck.isSome,
     s.path.access.isSome, s.overlay.enableA, s.overlay.enableB, s.sound.ramp.target == .unity],
   oneByte (showReel s)] ++ beBytes 3 s.ctl.position ++ beBytes 3 s.ctl.commitUnit ++ beBytes 2 s.count.blanked ++
    beBytes 3 (showTotal s) ++ beBytes 2 (showSpu s)

/-- Bytes 17 to 64: S_0 to S_15. -/
def statusReels (s : State) : List Byte :=
  match s.ctl.record with
  | none => zeroBytes 48
  | some r => (List.range 16).flatMap fun i => beBytes 3 (reelStart r i)

/-- Bytes 65 to 75: the Secure Clock. -/
def statusSecure (s : State) : List Byte :=
  [flagBits [s.secure.valid, s.secure.yearOpen]] ++ beBytes 4 s.secure.time ++ beBytes 4 s.secure.elapsed ++
    signedBytes s.secure.trimSum

/-- Four withheld counts. -/
def withheldBytes (c : WithheldCounts) : List Byte :=
  beBytes 4 c.state ++ beBytes 4 c.outsideReel ++ beBytes 4 c.window ++ beBytes 4 c.key

/-- Bytes 128 to 134: the unit-check record. -/
def unitCheckBytes (r : Option UnitCheckRecord) : List Byte :=
  match r with
  | none => zeroBytes 7
  | some r => [unitCauseCode r.cause] ++ beBytes 3 r.unit ++ [oneByte r.reel] ++ beBytes 2 r.further

/-- Bytes 76 to 134: the Unpack Engine and the raw counts. -/
def statusUnpack (s : State) : List Byte :=
  withheldBytes s.unpack.withheldPicture ++ withheldBytes s.unpack.withheldSound ++ beBytes 4 s.path.rawPicture ++
    beBytes 4 s.path.rawSound ++ beBytes 4 s.unpack.checkedUnits ++ beBytes 4 s.unpack.uncheckedUnits ++
    beBytes 3 (s.unpack.frontier.getD 0) ++ [oneByte s.unpack.late] ++ unitCheckBytes s.unpack.unitCheck

/-- Bytes 135 to 153: the Sound Stage. -/
def statusSound (s : State) : List Byte :=
  beBytes 5 (s.sound.frontier.getD 0) ++ [oneByte s.sound.late] ++ beBytes 2 s.sound.pendingMask.toNat ++
    beBytes 2 s.sound.activeMask.toNat ++ beBytes 5 s.sound.ramp.startSample ++ beBytes 2 s.sound.ramp.startGain ++
    beBytes 2 s.sound.ramp.length

/-- Bytes 162 to 170: the access record. -/
def accessBytes (r : Option AccessRecord) : List Byte :=
  match r with
  | none => zeroBytes 9
  | some r =>
    [oneByte (originatorTag r.who + if r.cause = .protectedRead then 128 else 0),
     oneByte ((r.region.map (·.val)).getD 0)] ++ beBytes 5 r.line ++ beBytes 2 r.further

/-- Bytes 154 to 170: the Overlay Unit's counts and the access record. -/
def statusOverlay (s : State) : List Byte :=
  beBytes 4 s.overlay.sideFailures ++ beBytes 4 s.overlay.unmatched ++ accessBytes s.path.access

/-- Bytes 171 to 182: the Count Unit. -/
def statusCount (s : State) : List Byte :=
  [oneByte s.count.ram.log.length] ++ beBytes 8 s.count.ram.sequence ++ beBytes 2 s.count.ram.screenId.toNat ++
    [storeCode s.count.status]

/-- Bytes 183 to 199: the Supervisor. -/
def statusSupervisor (s : State) : List Byte :=
  [outputCode (outputCondition s), oneByte s.sup.countdown] ++ kindMask (fun k => (faultOf s k).flag) ++
    kindMask (fun k => isConditionKind k && (faultOf s k).condition) ++ kindMask (fun k => (faultOf s k).latched) ++
    allKinds.map fun k => oneByte (faultOf s k).raises

/-- STATUS (Table 11-19). -/
def statusRecord (s : State) : List Byte :=
  statusShow s ++ statusReels s ++ statusSecure s ++ statusUnpack s ++ statusSound s ++ statusOverlay s ++ statusCount s ++
    statusSupervisor s

/-! ### One record of any table -/

/-- The FILTER record of an index (Table 11-17). -/
def filterTableRecord (s : State) (index : Nat) : List Byte :=
  if h : index < 8 then filterRecord s.cues.filters[index]
  else if index = 8 then intakeRecord s.cues
  else laneRecord (if index = 9 then s.cues.laneA else s.cues.laneB)

/-- The LICENCE record of an index, with its reserved flag (R130). -/
def licenceTableRecord (s : State) (index : Fin 8) : List Byte :=
  licenceRecord s.count.ram.licences[index] (s.count.reserved == some index)

/-- The bytes of a record as its owner holds them; none when its index is beyond the table's, or beyond the records the log
holds (R137, R158). -/
def recordBytes (s : State) (t : LinkTable) (index : Nat) : Option (List Byte) :=
  if tableIndexes t ≤ index then none
  else
    match t with
    | .ident => some (identRecord s)
    | .region => some (regionRecordBytes s.path.regions[Fin.ofNat 24 index])
    | .key => some (keyRecord s.keys[Fin.ofNat 16 index])
    | .licence => some (licenceTableRecord s (Fin.ofNat 8 index))
    | .showing => some (showRecord s)
    | .filter => some (filterTableRecord s index)
    | .policy => (faultKindOf index).map (policyRecord s)
    | .status => some (statusRecord s)
    | .log => s.count.ram.log[index]?.map logRecord
    | .events => some (eventsRecord s)
    | .clock => some (clockRecord s)
    | .link => some (linkRecord s)

end Sys2Proof.Machine
end

