-- ==== Sys2Proof/Machine/LinkPort.lean ====
section
/-! DEFINITION. Machine/LinkPort.lean: the Management Link Interface: snapshots and read transfers (R160), packets that do not
check or are refused at dispatch (R157, R158), ACK EVENTS (R162) and WRITE EVENTS (R163). -/

namespace Sys2Proof.Machine

/-- A snapshot taken (R160). -/
def takeSnapshot (r : LinkResult) (bytes : List Byte) (s : State) : State :=
  s.setLink { s.link with snapshot := { result := r, bytes := bytes } }

/-- READ_RECORD (R137, R160): the last result, detail and applied delta stay (R159). -/
def execReadRecord (table : LinkTable) (index : Byte) (s : State) : Host.Outcome State Fault Refusal :=
  .next (onLink (packetLength 0) s fun s =>
    match recordBytes s table index.toNat with
    | some bytes => takeSnapshot .ok bytes s
    | none => takeSnapshot .badIndex [] s)

/-- What a read transfer delivers before its CRC-8 (R160). -/
def transferHead (x : Snapshot) : List Byte := [resultCode x.result, oneByte x.bytes.length] ++ x.bytes

/-- The bytes of a read transfer, to its CRC-8 (R160). -/
def transferBytes (s : State) : List Byte :=
  transferHead s.link.snapshot ++ [crc8 (readAddressByte s :: transferHead s.link.snapshot)]

/-- The first `count` bytes of a read transfer; past the CRC-8 every byte is 255 (R160). -/
def transferred (s : State) (count : Nat) : List Byte :=
  (transferBytes s).take count ++ List.replicate (count - (transferBytes s).length) 255#8

/-- READ_TRANSFER (R160). -/
def execReadTransfer (count : Nat) (s : State) : Host.Outcome State Fault Refusal :=
  .next (onLink 1 s fun s => s.setOut { s.out with link := transferred s count })

/-- A packet's bytes are addressed to the part (R157). -/
def addressed (s : State) (bytes : List Byte) : Bool := addressedTo s.power.straps bytes

/-- BAD_CRC (R157); a packet to another address, or one that checks, is no such event (log 22). -/
def execBadCrc (packet : List Byte) (s : State) : Host.Outcome State Fault Refusal :=
  .next (onLink (ackedBytes s.power.straps packet) s fun s =>
    if addressed s packet && packetWhole packet && !packetCrcOk packet then answer .badCrc 0 s else s)

/-- BAD_LENGTH_TRUNCATED (R157); bytes to another address, or a whole packet, are no such event (log 22). -/
def execBadLengthTruncated (staged : List Byte) (s : State) : Host.Outcome State Fault Refusal :=
  .next (onLink (ackedBytes s.power.straps staged) s fun s => if addressed s staged && !packetWhole staged then answer .badLength 0 s else s)

/-- A request that dispatch refuses (R158): a READ RECORD leaves a snapshot of its result (R160), every other sets the last
result (R159; log 26). -/
def dispatchRefused (op : Byte) (r : LinkResult) (s : State) : State :=
  if linkOpOf op = some .readRecord then takeSnapshot r [] s else answer r 0 s

/-- UNRECOGNISED_PACKET (R158); a packet that passes every check of R158 is no such event (log 22). -/
def execUnrecognisedPacket (op table index : Byte) (data : List Byte) (s : State) : Host.Outcome State Fault Refusal :=
  .next (onLink (packetLength data.length) s fun s =>
    match linkRefusal op table index data with
    | some r => dispatchRefused op r s
    | none => s)

/-- ACK_EVENTS (R162): bit e names event e. -/
def execAckEvents (mask : Byte) (s : State) : Host.Outcome State Fault Refusal :=
  .next (onLink (packetLength 1) s fun s => answer .ok 0
    (s.setLink { s.link with eventPending := s.link.eventPending &&& ~~~(mask.setWidth 7) }))

/-- WRITE_EVENTS (R163). -/
def execWriteEvents (enables selects : Byte) (s : State) : Host.Outcome State Fault Refusal :=
  .next (onLink (packetLength 4) s fun s => answer .ok 0
    (s.setLink { s.link with eventEnables := enables.setWidth 7, eventSelects := selects.setWidth 7 }))

end Sys2Proof.Machine
end

