-- ==== Sys2Proof/Machine/Overlay.lean ====
section
/-! DEFINITION. Machine/Overlay.lean: the Overlay Unit: the plane lines a display read needs (R117 to R119), what the read
returns (R120 to R122), and LANE ENABLE (R118). -/

namespace Sys2Proof.Machine

/-! ### Naming at the arrival -/

/-- A lane's enable (R118). -/
def laneEnabled (s : State) : LaneId → Bool
  | .a => s.overlay.enableA
  | .b => s.overlay.enableB

/-- A cue is drawn when its lane is enabled or it is forced (R118). -/
def cueDrawn (enabled : Bool) (c : Cue) : Bool := enabled || c.forced

/-- A cue's window covers the line in row `y` and column group `g` (R119). -/
def windowCovers (c : Cue) (y g : Nat) : Bool :=
  decide (c.y0 ≤ y) && decide (y < c.y0 + c.h) && decide (c.x0 ≤ 16 * g) && decide (16 * g < c.x0 + c.w)

/-- The draw entry bound for a lane's cue (R119). -/
def drawEntryOf (lane : LaneId) (c : Cue) : DrawEntry where
  lane := lane
  number := c.number
  inUnit := c.inUnit
  x0 := c.x0
  y0 := c.y0
  w := c.w
  h := c.h
  plane := c.plane
  px := c.px
  py := c.py

/-- Plane row of a covered line (R119). -/
def planeRow (c : Cue) (y : Nat) : Nat := c.py + y - c.y0

/-- Plane group of a covered line (R119): x0 and px are multiples of 16, and the window's left edge is at or before 16 × g. -/
def planeGroup (c : Cue) (g : Nat) : Nat := (c.px + 16 * g - c.x0) / 16

/-- A side read as named: the read to be awaited and the line to send, or a failure with nothing sent (R13, R119). -/
structure NamedSide where
  side : SideRead
  sent : Option Nat
  deriving DecidableEq, Repr

/-- What a drawn, covering cue names (R119, the three cases of the plane entry). -/
def nameCue (s : State) (lane : LaneId) (c : Cue) (y g : Nat) : Option NamedSide :=
  let e := s.path.regions[c.plane]
  if isPlane e then
    if planeRow c y < e.height ∧ 16 * planeGroup c g < e.width then
      some { side := { entry := drawEntryOf lane c, status := .awaited },
             sent := some (e.base + (planeRow c y * e.pitch + planeGroup c g)) }
    else none
  else some { side := { entry := drawEntryOf lane c, status := .failed }, sent := none }

/-- What a lane names for a display read (R119). -/
def nameLane (s : State) (b : Binding) (lane : LaneId) : Option NamedSide :=
  match (cueLane s lane).active with
  | none => none
  | some a =>
    if cueDrawn (laneEnabled s lane) a.cue && windowCovers a.cue (b.offset / b.pitch) (b.offset % b.pitch) then
      nameCue s lane a.cue (b.offset / b.pitch) (b.offset % b.pitch)
    else none

/-- What the Overlay Unit names for a display read, lane A first (R119). -/
def nameSides (s : State) (b : Binding) : List NamedSide :=
  (nameLane s b .a).toList ++ (nameLane s b .b).toList

/-! ### The line returned -/

/-- A draw entry matches an active cue (R122). -/
def entryMatchesCue (e : DrawEntry) (c : Cue) : Bool :=
  e.number == c.number && e.inUnit == c.inUnit && e.x0 == c.x0 && e.y0 == c.y0 && e.w == c.w && e.h == c.h &&
    e.plane == c.plane && e.px == c.px && e.py == c.py

/-- The cue that a draw entry matches at the return, if any (R122). -/
def matchedCue (s : State) (e : DrawEntry) : Option Cue :=
  match (cueLane s e.lane).active with
  | none => none
  | some a => if entryMatchesCue e a.cue then some a.cue else none

/-- The fade level of an active cue at the show position (R123). -/
def cueLevel (s : State) (c : Cue) : Nat := fadeLevel c.inUnit c.outUnit c.fadeUp c.fadeDown s.ctl.position

/-- The cue drawn for one side read of a composited line: none when it failed or does not match (R120, R122). -/
def drawnFor (s : State) (r : SideRead) : Option DrawnCue :=
  match r.status with
  | .data plane => (matchedCue s r.entry).map fun c => { level := cueLevel s c, plane := plane }
  | .failed | .awaited => none

/-- A side read that failed. -/
def sideFailed (r : SideRead) : Bool :=
  match r.status with
  | .failed => true
  | .data _ | .awaited => false

/-- A side read whose data came but whose entry matches no active cue (R122). -/
def sideUnmatched (s : State) (r : SideRead) : Bool :=
  match r.status with
  | .data _ => (matchedCue s r.entry).isNone
  | .failed | .awaited => false

/-- The two counts after a composited line (R120, R122). -/
def countComposite (sides : List SideRead) (s : State) : State :=
  s.setOverlay { s.overlay with
    sideFailures := satAdd Config.max32 s.overlay.sideFailures (sides.filter sideFailed).length
    unmatched := satAdd Config.max32 s.overlay.unmatched (sides.filter (sideUnmatched s)).length }

/-- The base line of a composite, or none when the line is black or unchanged (R121). -/
def compositeBase (s : State) (b : Binding) (frame : Line) : Option Line :=
  if pictureShown s then some frame
  else if previewDisplay s then some (if b.isProtected then blackLine b.range else frame)
  else none

/-- The line a display read returns (R121). -/
def displayLine (s : State) (b : Binding) (sides : List SideRead) (frame : Line) : Line :=
  match compositeBase s b frame with
  | some base => compositeLine b.range (sides.filterMap (drawnFor s)) base
  | none => if b.isProtected then blackLine b.range else frame

/-- The return of a display read's joined data: the line goes upstream, and a composited one moves the counts. -/
def displayReturn (txn : Nat) (b : Binding) (sides : List SideRead) (frame : Line) (s : State) : State :=
  sendUp (.data txn (displayLine s b sides frame))
    (if (compositeBase s b frame).isSome then countComposite sides s else s)

/-! ### LANE ENABLE -/

/-- LANE ENABLE (R118): bit 0 lane A, bit 1 lane B. -/
def execLaneEnable (bits : Byte) (s : State) : Host.Outcome State Fault Refusal :=
  .next (onLink (packetLength 1) s fun s => answer .ok 0
    (s.setOverlay { s.overlay with enableA := bits.getLsbD 0, enableB := bits.getLsbD 1 }))

end Sys2Proof.Machine
end

