-- ==== Sys2Proof/Machine/MemoryPath.lean ====
section
/-! DEFINITION. Machine/MemoryPath.lean: the Path Classifier: arrivals of reads and writes (R1, R4, R9 to R11, R13, R14, R16) and
the downstream answers (R2, R12, R13, R15). -/

namespace Sys2Proof.Machine

/-! ### Arrival -/

/-- The line address of a byte address (R1): the six low bits are not examined. -/
def lineAddress (addr : BitVec 40) : Nat := addr.toNat / 64

/-- Classification at the arrival (R4); while BRST_N is held low everything is OPEN (R17). -/
def classify (s : State) (line : Nat) : Binding :=
  if s.power.brstLow then openBinding line else lookupBinding s.path.regions line

/-- The route of a read (Table 1-1); none is answered black. -/
def readRoute (b : Binding) (who : Originator) : Option Route :=
  match b.kind with
  | .openMemory | .plane | .cue => some .plain
  | .pictureEssence => some (if who = .decode then .picture else .raw)
  | .soundEssence => some (if who = .audio then .sound else .raw)
  | .frame =>
    if isPadding b then some .plain
    else if who = .scan then some .display
    else if b.isProtected ∧ who ≠ .decode then none
    else some .plain

/-- A raw read is counted at its arrival, by the region's kind (R10). -/
def countRaw (kind : RegionKind) (s : State) : State :=
  match kind with
  | .pictureEssence => s.setPath { s.path with rawPicture := satInc Config.max32 s.path.rawPicture }
  | .soundEssence => s.setPath { s.path with rawSound := satInc Config.max32 s.path.rawSound }
  | .openMemory | .frame | .plane | .cue => s

/-- The access record at a raise (R16). -/
def noteAccess (cause : AccessCause) (who : Originator) (region : Option (Fin 24)) (line : Nat) (s : State) : State :=
  s.setPath { s.path with
    access :=
      match s.path.access with
      | none => some { cause := cause, who := who, region := region, line := line, further := 0 }
      | some r => some { r with further := satInc Config.max16 r.further } }

/-- ACCESS is raised (R16). -/
def raiseAccess (cause : AccessCause) (who : Originator) (b : Binding) (line : Nat) (s : State) : State :=
  raiseFault s.sound.ramp .access (noteAccess cause who b.entry line s)

/-- The next transaction number is taken (log 11). -/
def takeTxn (s : State) : State := s.setPath { s.path with nextTxn := s.path.nextTxn + 1 }

/-- The side reads of a display read are sent downstream (R13). -/
def sendSides (txn : Nat) (named : List NamedSide) (s : State) : State :=
  named.foldl (fun t n =>
    match n.sent with
    | some line => sendDown (.sideRead txn n.side.entry.lane line) t
    | none => t) s

/-- What a route names at the arrival: side reads for a display read alone (R13). -/
def sidesFor (s : State) (b : Binding) (route : Route) : List NamedSide :=
  match route with
  | .display => nameSides s b
  | .plain | .raw | .picture | .sound => []

/-- A read forwarded downstream under a route (R2, R9, R13). -/
def forwardRead (line : Nat) (who : Originator) (b : Binding) (route : Route) (s : State) : State :=
  let named := sidesFor s b route
  let read : ReadInFlight :=
    { txn := s.path.nextTxn, line := line, who := who, binding := b, route := route, frame := none,
      sides := named.map (·.side) }
  sendSides s.path.nextTxn named
    (sendDown (.read s.path.nextTxn line who) (takeTxn (s.setPath { s.path with reads := s.path.reads ++ [read] })))

/-- A protected picture line answered black at its arrival (R11). -/
def answerBlack (line : Nat) (who : Originator) (b : Binding) (s : State) : State :=
  raiseAccess .protectedRead who b line (sendUp (.data s.path.nextTxn (blackLine b.range)) (takeTxn s))

/-- The arrival of a read with its binding. -/
def readArrives (line : Nat) (who : Originator) (b : Binding) (s : State) : State :=
  match readRoute b who with
  | none => answerBlack line who b s
  | some .raw => forwardRead line who b .raw (countRaw b.kind s)
  | some route => forwardRead line who b route s

/-- LINE_READ (R9). -/
def execLineRead (addr : BitVec 40) (who : Originator) (s : State) : Host.Outcome State Fault Refusal :=
  .next (whenOn s fun s => readArrives (lineAddress addr) who (classify s (lineAddress addr)) s)

/-- The originator is in the writers mask (R14). -/
def mayWrite (b : Binding) (who : Originator) : Bool := b.writers.getLsbD (originatorTag who)

/-- A write forwarded downstream; its data and enables are kept until its completion (R14, R15). -/
def forwardWrite (line : Nat) (who : Originator) (b : Binding) (data : Line) (enables : BitVec 64) (s : State) : State :=
  let write : WriteInFlight :=
    { txn := s.path.nextTxn, line := line, who := who, binding := b, data := data, enables := enables }
  sendDown (.write s.path.nextTxn line who data enables)
    (takeTxn (s.setPath { s.path with writes := s.path.writes ++ [write] }))

/-- A write refused at its arrival (R14, R16). -/
def refuseWrite (line : Nat) (who : Originator) (b : Binding) (s : State) : State :=
  raiseAccess .writeRefused who b line (sendUp (.writeError s.path.nextTxn) (takeTxn s))

/-- The arrival of a write with its binding. -/
def writeArrives (line : Nat) (who : Originator) (data : Line) (enables : BitVec 64) (b : Binding) (s : State) : State :=
  if mayWrite b who then forwardWrite line who b data enables s else refuseWrite line who b s

/-- LINE_WRITE (R14). -/
def execLineWrite (addr : BitVec 40) (who : Originator) (data : Line) (enables : BitVec 64) (s : State) :
    Host.Outcome State Fault Refusal :=
  .next (whenOn s fun s => writeArrives (lineAddress addr) who data enables (classify s (lineAddress addr)) s)

/-! ### Downstream answers -/

/-- The read in flight whose own answer is awaited under a number. -/
def awaitedRead (s : State) (txn : Nat) : Option ReadInFlight :=
  s.path.reads.find? fun r => r.txn == txn && r.frame.isNone

/-- The side read for a lane is awaited. -/
def sideAwaited (lane : LaneId) (r : SideRead) : Bool :=
  r.entry.lane == lane &&
    match r.status with
    | .awaited => true
    | .data _ | .failed => false

/-- The display read under a number that awaits a side read for a lane. -/
def awaitedSide (s : State) (txn : Nat) (lane : LaneId) : Option ReadInFlight :=
  s.path.reads.find? fun r => r.txn == txn && r.sides.any (sideAwaited lane)

/-- A read leaves the part. -/
def dropRead (txn : Nat) (s : State) : State :=
  s.setPath { s.path with reads := s.path.reads.filter fun r => r.txn != txn }

/-- A read in flight replaced. -/
def putRead (x : ReadInFlight) (s : State) : State :=
  s.setPath { s.path with reads := s.path.reads.map fun r => if r.txn = x.txn then x else r }

/-- A display read is complete (R13): its own data and the answer to each sent side read have returned. -/
def readComplete (r : ReadInFlight) : Bool :=
  r.frame.isSome && !r.sides.any fun x => sideAwaited .a x || sideAwaited .b x

/-- A display read as it now stands: joined and returned when complete, else held (R13). -/
def joinDisplay (r : ReadInFlight) (s : State) : State :=
  match r.frame with
  | some frame =>
    if readComplete r then displayReturn r.txn r.binding r.sides frame (dropRead r.txn s) else putRead r s
  | none => putRead r s

/-- The data answer of a forwarded read, by its route (R12). -/
def readData (r : ReadInFlight) (line : Line) (s : State) : State :=
  match r.route with
  | .plain | .raw => sendUp (.data r.txn line) (dropRead r.txn s)
  | .picture => pictureReturn r.txn r.binding line (dropRead r.txn s)
  | .sound => soundReturn r.txn r.binding line (dropRead r.txn s)
  | .display => joinDisplay { r with frame := some line } s

/-- The error answer of a forwarded read (R12, R81). -/
def readError (r : ReadInFlight) (s : State) : State :=
  let t := sendUp (.readError r.txn) (dropRead r.txn s)
  match r.route with
  | .picture => pictureError r.binding t
  | .plain | .raw | .sound | .display => t

/-- The downstream answer of a forwarded read. -/
def readReturns (r : ReadInFlight) (ans : ReadAnswer) (s : State) : State :=
  match ans with
  | .data line => readData r line s
  | .error => readError r s

/-- READ_RETURN (R12); an answer that no read awaits is no event of the part (log 6). -/
def execReadReturn (txn : Nat) (ans : ReadAnswer) (s : State) : Host.Outcome State Fault Refusal :=
  .next (whenOn s fun s =>
    match awaitedRead s txn with
    | some r => readReturns r ans s
    | none => s)

/-- A side read with the answer that has come. -/
def answerSide (lane : LaneId) (ans : ReadAnswer) (r : SideRead) : SideRead :=
  if sideAwaited lane r then
    { r with status :=
        match ans with
        | .data line => .data line
        | .error => .failed }
  else r

/-- SIDE_READ_RETURN (R13); an answer that no side read awaits is discarded (R12; log 6). -/
def execSideReadReturn (txn : Nat) (lane : LaneId) (ans : ReadAnswer) (s : State) : Host.Outcome State Fault Refusal :=
  .next (whenOn s fun s =>
    match awaitedSide s txn lane with
    | some r => joinDisplay { r with sides := r.sides.map (answerSide lane ans) } s
    | none => s)

/-- The write in flight under a number. -/
def awaitedWrite (s : State) (txn : Nat) : Option WriteInFlight := s.path.writes.find? fun w => w.txn == txn

/-- A write leaves the part. -/
def dropWrite (txn : Nat) (s : State) : State :=
  s.setPath { s.path with writes := s.path.writes.filter fun w => w.txn != txn }

/-- The downstream completion of a write, passed upstream; a cue write that completes OK goes to Cue Intake (R2, R15). -/
def writeCompletes (w : WriteInFlight) (ok : Bool) (s : State) : State :=
  let t := sendUp (if ok then .writeOk w.txn else .writeError w.txn) (dropWrite w.txn s)
  if ok && w.binding.kind == .cue then cueIntake w.data w.enables t else t

/-- WRITE_COMPLETION (R2, R15); a completion that no write awaits is no event of the part (log 6). -/
def execWriteCompletion (txn : Nat) (ok : Bool) (s : State) : Host.Outcome State Fault Refusal :=
  .next (whenOn s fun s =>
    match awaitedWrite s txn with
    | some w => writeCompletes w ok s
    | none => s)

end Sys2Proof.Machine
end

