-- ==== Sys2Proof/Machine/Regions.lean ====
section
/-! DEFINITION. Machine/Regions.lean: the write of a Region Table entry (R6, R7). -/

namespace Sys2Proof.Machine

/-- No other VALID entry shares a line with the new one (R6, check 7). -/
def noOverlap (regions : Vector RegionEntry 24) (index : Fin 24) (e : RegionEntry) : Bool :=
  (List.finRange 24).all fun j => j == index || !regions[j].valid || !rangesMeet e regions[j]

/-- The size check (R6, check 3). -/
def sizeOk (e : RegionEntry) : Bool :=
  decide (1 ≤ e.size) && decide (e.size ≤ 268435456) && decide (e.base + e.size ≤ 17179869184)

/-- Checks 2 to 7 of R6, made on a VALID record alone. -/
def validChecks (index : Fin 24) (w : RegionWrite) (s : State) : List Check :=
  let e := entryOfWrite w
  [{ pass := (regionKindOf w.kind).isSome, result := .refusedValue, detail := 2 },
   { pass := sizeOk e, result := .refusedValue, detail := 3 },
   { pass := !isEssence e.kind || decide (e.reel ≤ 15), result := .refusedValue, detail := 4 },
   { pass := e.kind != .pictureEssence || (decide (2 ≤ e.stride) && decide (e.stride ≤ 65535)),
     result := .refusedValue, detail := 5 },
   { pass := !hasGeometry e.kind || geometryOk e, result := .refusedValue, detail := 6 },
   { pass := noOverlap s.path.regions index e, result := .refusedValue, detail := 7 }]

/-- The checks of R6. -/
def regionChecks (index : Fin 24) (w : RegionWrite) (s : State) : List Check :=
  { pass := !isPrimed s, result := .refusedState, detail := 1 } :: if w.valid then validChecks index w s else []

/-- An accepted REGION record (R6); the check of a cue reads the new entry (R115), so a plane lost at that index is forgotten (log 29). -/
def regionWritten (index : Fin 24) (w : RegionWrite) (s : State) : State :=
  answer .ok 0
    (s.setPath { s.path with
      regions := vput s.path.regions index (entryOfWrite w)
      planesLost := s.path.planesLost.filter fun i => i != index })

/-- REGION_RECORD (R6). -/
def execRegionRecord (index : Fin 24) (w : RegionWrite) (s : State) : Host.Outcome State Fault Refusal :=
  .next (onLink (packetLength 32) s fun s => checked (regionChecks index w s) (regionWritten index w) s)

end Sys2Proof.Machine
end

