-- ==== Sys2Proof/Machine/Resets.lean ====
section
/-! DEFINITION. Machine/Resets.lean: booth reset from BRST_N and from the RESET command (R17, R35, R41, R59, R86, R99, R116, R127,
R142, R156, R159 to R161, R163), power-on reset (R141) and the loss of power. -/

namespace Sys2Proof.Machine

/-- The entries that are planes, or were until a booth reset of this microsecond (log 29). -/
def planesOf (p : Path) : List (Fin 24) := (List.finRange 24).filter fun i => isPlane p.regions[i] || p.planesLost.contains i

/-- The Path Classifier at booth reset: transactions in flight keep their bindings (R17), and the Region Table goes INVALID (R5).
The planes it takes away are kept for the microsecond (log 29). -/
def resetPath (p : Path) : Path := { reads := p.reads, writes := p.writes, nextTxn := p.nextTxn, planesLost := planesOf p }

/-- The Show Clock at booth reset: the timebase goes on (R35); the microsecond's mark stays (log 25). -/
def resetClock (c : Clock) : Clock := { timebase := c.timebase, edgeSeen := c.edgeSeen }

/-- The Supervisor at booth reset (R156); the microsecond's mark stays (log 25). -/
def resetSupervisor (x : Supervisor) : Supervisor := { watchdog := { tickSeen := x.watchdog.tickSeen } }

/-- Every block but the Count Unit at its booth-reset values; the Secure Clock is not touched (R66). -/
def resetBlocks (s : State) : State :=
  { s with
    path := resetPath s.path, clock := resetClock s.clock, ctl := {}, keys := Vector.replicate 16 .empty, unpack := {},
    sound := {}, cues := {}, overlay := {}, sup := resetSupervisor s.sup, link := {} }

/-- The Count Unit at booth reset: the reservation and the blanked count go, the RAM copy is reloaded at once when the store is
READY, later when it is BUSY, and not at all when it is FAILED (R142); the microsecond's mark goes with the show (log 30). -/
def resetCount (s : State) : State :=
  let t := s.setCount { s.count with reserved := none, blanked := 0, commitSeen := false }
  match s.count.status with
  | .ready => loadRam t
  | .busy _ => t.setCount { t.count with reloadDue := true }
  | .failed => t

/-- Booth reset. -/
def boothResetAll (s : State) : State := resetCount (resetBlocks s)

/-- RESET (R161): the result it leaves is OK (R159).  The transfer in progress is its own packet, which has ended (R157). -/
def execReset (s : State) : Host.Outcome State Fault Refusal :=
  .next (onLink (packetLength 0) s fun s => answer .ok 0 (boothResetAll s))

/-- A transfer in progress at the booth reset is cut off: it ends without a result, the bytes of it that the port has
acknowledged being all that it acknowledges (R157; log 14). -/
def cutTransfer (midTransfer : Option Nat) (s : State) : State :=
  acknowledge (midTransfer.getD 0) (s.setLink { s.link with cutOff := midTransfer.isSome })

/-- BOOTH_RESET (R17, R35, R157): BRST_N falls; without supply the level alone changes (log 15, log 17). -/
def execBoothReset (s : State) (midTransfer : Option Nat := none) : Host.Outcome State Fault Refusal :=
  .next (
    let t := (quiet s).setPower { s.power with brstLow := true }
    if s.power.on && !s.power.brstLow then cutTransfer midTransfer (boothResetAll t) else t)

/-- BRST_N_RELEASE (R35). -/
def execBrstNRelease (s : State) : Host.Outcome State Fault Refusal :=
  .next ((quiet s).setPower { s.power with brstLow := false })

/-- The Count Unit at power-on (R141): the store's contents are kept; the RAM copy is loaded by `loadRam`, or stays empty. -/
def powerCount (readable : Bool) (c : CountUnit) : CountUnit :=
  { store := c.store, status := if readable then .ready else .failed }

/-- The backup domain reports its supply held (R66; log 16). -/
def supplyKept (supplyHeld : Bool) (s : State) : Bool := supplyHeld && s.power.backupHeld

/-- The part as it comes up, before the Count Store is loaded: everything at its power-on value, the Secure Clock kept when
its supply was held (R66), the level of BRST_N as it is (log 17). -/
def powerBlocks (supplyHeld readable : Bool) (straps : BitVec 2) (s : State) : State :=
  { pending := s.pending
    power := { on := true, brstLow := s.power.brstLow, backupHeld := true, straps := straps }
    secure := if supplyKept supplyHeld s then s.secure else {}
    count := powerCount readable s.count
    free := s.free }

/-- POWER_ON_RESET (R141). -/
def execPowerOnReset (supplyHeld storeReadable : Bool) (straps : BitVec 2) (s : State) :
    Host.Outcome State Fault Refusal :=
  .next (
    let t := powerBlocks supplyHeld storeReadable straps s
    if storeReadable then loadRam t else t)

/-- LOSS_OF_POWER (R66, R141): the part stops; a write in flight is cut off, which the next power-on finds (R141). -/
def execLossOfPower (backupFails : Bool) (s : State) : Host.Outcome State Fault Refusal :=
  .next ((quiet s).setPower { s.power with on := false, backupHeld := s.power.backupHeld && !backupFails })

end Sys2Proof.Machine
end

