-- ==== Sys2Proof/Machine/Supervision.lean ====
section
/-! DEFINITION. Machine/Supervision.lean: the Supervisor's requests and its watchdog: CLEAR FAULTS (R152), feeds and the expiry of
the watchdog (R154), WRITE POLICY (R146). -/

namespace Sys2Proof.Machine

/-! ### CLEAR FAULTS -/

/-- The mask names a kind. -/
def named (mask : BitVec 16) (k : FaultKind) : Bool := mask.getLsbD (faultIndex k).val

/-- A named kind is kept: its condition is active (R152). -/
def kept (s : State) (k : FaultKind) : Bool := isConditionKind k && (faultOf s k).condition

/-- The record that goes with a kind is emptied (R152). -/
def emptyRecord (k : FaultKind) (s : State) : State :=
  match k with
  | .access => s.setPath { s.path with access := none }
  | .unitCheck => s.setUnpack { s.unpack with unitCheck := none }
  | .syncLoss | .pictureStarved | .soundStarved | .keyLapsed | .watchdog | .cueOverrun | .storeFail => s

/-- One kind at CLEAR FAULTS (R152). -/
def clearKind (mask : BitVec 16) (s : State) (k : FaultKind) : State :=
  if named mask k && !kept s k then
    emptyRecord k (modFault k (fun e => { e with flag := false, latched := false }) s)
  else s

/-- The number of named kinds kept (R152). -/
def keptCount (mask : BitVec 16) (s : State) : Nat :=
  (allKinds.filter fun k => named mask k && kept s k).length

/-- CLEAR FAULTS carried out (R152). -/
def faultsCleared (mask : BitVec 16) (s : State) : State :=
  let t := allKinds.foldl (clearKind mask) s
  answer .ok (keptCount mask s)
    (if outputCondition s ≠ .openOutput ∧ outputCondition t = .openOutput then outputReturned s.sound.ramp t else t)

/-- CLEAR_FAULTS (R152). -/
def execClearFaults (mask : BitVec 16) (s : State) : Host.Outcome State Fault Refusal :=
  .next (onLink (packetLength 2) s (faultsCleared mask))

/-! ### Watchdog -/

/-- The watchdog changed. -/
def setWatchdog (w : Watchdog) (s : State) : State := s.setSup { s.sup with watchdog := w }

/-- The deadline one interval from now (R154). -/
def freshDeadline (s : State) (interval : Nat) : Option Time :=
  some (s.clock.timebase + BitVec.ofNat 48 (interval * 1000000))

/-- An active WATCHDOG condition is withdrawn. -/
def watchdogFound (s : State) : State := if s.sup.watchdog.condition then withdraw .watchdog s else s

/-- A feed (R154). -/
def feed (s : State) : State :=
  if s.sup.watchdog.enabled then
    let t := watchdogFound s
    setWatchdog { t.sup.watchdog with deadline := freshDeadline t t.sup.watchdog.interval } t
  else s

/-- TICKLE (R154). -/
def execTickle (s : State) : Host.Outcome State Fault Refusal :=
  .next (onLink (packetLength 0) s fun s => answer .ok 0 (feed s))

/-- WD_TICK (R154): no feed while BRST_N is held low, and once only in a microsecond. -/
def execWdTick (s : State) : Host.Outcome State Fault Refusal :=
  .next (whenOn s fun s =>
    if s.power.brstLow || s.sup.watchdog.tickSeen then s
    else feed (setWatchdog { s.sup.watchdog with tickSeen := true } s))

/-- The watchdog expires (R154). -/
def watchdogExpires (s : State) : State :=
  raiseCondition s.sound.ramp .watchdog (setWatchdog { s.sup.watchdog with deadline := none } s)

/-- WATCHDOG_EXPIRY (R154); without effect when it is not due (log 5). -/
def execWatchdogExpiry (s : State) : Host.Outcome State Fault Refusal :=
  .next (whenOn s fun s => if watchdogDue s then watchdogExpires s else s)

/-! ### WRITE POLICY -/

/-- The policy byte names a policy that the kind allows (R146, detail 2). -/
def policyByteOk (k : FaultKind) (b : Byte) : Bool :=
  match policyOf b with
  | some p => policyAllowed k p
  | none => false

/-- The ramp length of a SOUND_STARVED record, bytes 4 to 5 (Table 11-18). -/
def rampLengthOf (w : PolicyWrite) : Nat := w.byte4.toNat * 256 + w.byte5.toNat

/-- A starve limit is in range (R85, R97). -/
def limitOk (b : Byte) : Bool := decide (1 ≤ b.toNat) && decide (b.toNat ≤ 8)

/-- A watchdog interval is in range (R154). -/
def intervalOk (b : Byte) : Bool := b.toNat == 1 || b.toNat == 2 || b.toNat == 5 || b.toNat == 10

/-- The further fields are in range (R146, detail 4). -/
def furtherOk (k : FaultKind) (w : PolicyWrite) : Bool :=
  match k with
  | .pictureStarved => limitOk w.byte3
  | .soundStarved => limitOk w.byte3 && decide (rampLengthOf w ≤ 9600)
  | .watchdog => intervalOk w.byte4
  | .syncLoss | .unitCheck | .keyLapsed | .cueOverrun | .access | .storeFail => true

/-- The checks of R146. -/
def policyChecks (k : FaultKind) (w : PolicyWrite) : List Check :=
  [{ pass := policyByteOk k w.policy, result := .refusedValue, detail := 2 },
   { pass := decide (1 ≤ w.blank.toNat) && decide (w.blank.toNat ≤ 255), result := .refusedValue, detail := 3 },
   { pass := furtherOk k w, result := .refusedValue, detail := 4 }]

/-- An accepted WATCHDOG record at the watchdog (R154). -/
def watchdogWritten (enabled : Bool) (interval : Nat) (s : State) : State :=
  if enabled then
    setWatchdog { s.sup.watchdog with enabled := true, interval := interval, deadline := freshDeadline s interval } s
  else
    let t := watchdogFound s
    setWatchdog { t.sup.watchdog with enabled := false, interval := interval, deadline := none } t

/-- The further fields of an accepted record (R85, R92, R97, R146, R154). -/
def writeFurther (k : FaultKind) (w : PolicyWrite) (s : State) : State :=
  match k with
  | .pictureStarved => s.setUnpack { s.unpack with limit := w.byte3.toNat }
  | .soundStarved => s.setSound { s.sound with limit := w.byte3.toNat, rampLength := rampLengthOf w }
  | .watchdog => watchdogWritten (w.byte3.getLsbD 0) w.byte4.toNat s
  | .syncLoss | .unitCheck | .keyLapsed | .cueOverrun | .access | .storeFail => s

/-- The policy entry of an accepted record (R146). -/
def policyEntryOf (w : PolicyWrite) : PolicyEntry :=
  { policy := (policyOf w.policy).getD .report, blank := w.blank.toNat, lineFlag := w.lineFlag }

/-- The policy table with a kind's entry replaced (R146). -/
def putPolicy (k : FaultKind) (e : PolicyEntry) (s : State) : State :=
  s.setSup { s.sup with policies := vput s.sup.policies (faultIndex k) e }

/-- WRITE_POLICY (R146). -/
def execWritePolicy (kind : FaultKind) (w : PolicyWrite) (s : State) : Host.Outcome State Fault Refusal :=
  .next (onLink (packetLength 8) s fun s =>
    checked (policyChecks kind w)
      (fun s => answer .ok 0 (writeFurther kind w (putPolicy kind (policyEntryOf w) s))) s)

end Sys2Proof.Machine
end

