-- ==== Sys2Proof/Machine/Dispatch.lean ====
section
/-! DEFINITION. Machine/Dispatch.lean: one arm for each command, each a direct call of its meaning. -/

namespace Sys2Proof.Machine

/-- The effect of a command on everything but the queue of waiting commands. -/
def exec (i : Instr) (s : State) : Host.Outcome State Fault Refusal :=
  match i with
  | .lineRead addr who => Sys2Proof.Machine.execLineRead addr who s
  | .lineWrite addr who data enables => Sys2Proof.Machine.execLineWrite addr who data enables s
  | .readReturn txn ans => Sys2Proof.Machine.execReadReturn txn ans s
  | .sideReadReturn txn lane ans => Sys2Proof.Machine.execSideReadReturn txn lane ans s
  | .writeCompletion txn ok => Sys2Proof.Machine.execWriteCompletion txn ok s
  | .fsyncInEdge => Sys2Proof.Machine.execFsyncInEdge s
  | .windowExpiry => Sys2Proof.Machine.execWindowExpiry s
  | .anchorTimeout => Sys2Proof.Machine.execAnchorTimeout s
  | .internalExpiry => Sys2Proof.Machine.execInternalExpiry s
  | .loadShow w => Sys2Proof.Machine.execLoadShow w s
  | .prime => Sys2Proof.Machine.execPrime s
  | .primePreview => Sys2Proof.Machine.execPrimePreview s
  | .start => Sys2Proof.Machine.execStart s
  | .hold => Sys2Proof.Machine.execHold s
  | .resume => Sys2Proof.Machine.execResume s
  | .stop => Sys2Proof.Machine.execStop s
  | .unload => Sys2Proof.Machine.execUnload s
  | .regionRecord index w => Sys2Proof.Machine.execRegionRecord index w s
  | .loadKey index blob check => Sys2Proof.Machine.execLoadKey index blob check s
  | .purgeKey index => Sys2Proof.Machine.execPurgeKey index s
  | .keyExpiry index => Sys2Proof.Machine.execKeyExpiry index s
  | .secureTick => Sys2Proof.Machine.execSecureTick s
  | .trimYearClose => Sys2Proof.Machine.execTrimYearClose s
  | .setTime t => Sys2Proof.Machine.execSetTime t s
  | .trimTime d => Sys2Proof.Machine.execTrimTime d s
  | .loadLicence index blob check => Sys2Proof.Machine.execLoadLicence index blob check s
  | .deleteLicence index => Sys2Proof.Machine.execDeleteLicence index s
  | .popLog seq => Sys2Proof.Machine.execPopLog seq s
  | .setScreen id => Sys2Proof.Machine.execSetScreen id s
  | .storeWriteCompletion => Sys2Proof.Machine.execStoreWriteCompletion s
  | .storeWriteFailure => Sys2Proof.Machine.execStoreWriteFailure s
  | .clearFaults mask => Sys2Proof.Machine.execClearFaults mask s
  | .tickle => Sys2Proof.Machine.execTickle s
  | .wdTick => Sys2Proof.Machine.execWdTick s
  | .watchdogExpiry => Sys2Proof.Machine.execWatchdogExpiry s
  | .setMute mask => Sys2Proof.Machine.execSetMute mask s
  | .laneEnable bits => Sys2Proof.Machine.execLaneEnable bits s
  | .ackEvents mask => Sys2Proof.Machine.execAckEvents mask s
  | .reset => Sys2Proof.Machine.execReset s
  | .boothReset midTransfer => Sys2Proof.Machine.execBoothReset s midTransfer
  | .brstNRelease => Sys2Proof.Machine.execBrstNRelease s
  | .powerOnReset supplyHeld storeReadable straps => Sys2Proof.Machine.execPowerOnReset supplyHeld storeReadable straps s
  | .writeFilter index w => Sys2Proof.Machine.execWriteFilter index w s
  | .writeDefaultAction action => Sys2Proof.Machine.execWriteDefaultAction action s
  | .writeLowMark lane mark => Sys2Proof.Machine.execWriteLowMark lane mark s
  | .writePolicy kind w => Sys2Proof.Machine.execWritePolicy kind w s
  | .writeEvents enables selects => Sys2Proof.Machine.execWriteEvents enables selects s
  | .writeClock window lossLimit => Sys2Proof.Machine.execWriteClock window lossLimit s
  | .readRecord table index => Sys2Proof.Machine.execReadRecord table index s
  | .readTransfer count => Sys2Proof.Machine.execReadTransfer count s
  | .badCrc packet => Sys2Proof.Machine.execBadCrc packet s
  | .badLengthTruncated staged => Sys2Proof.Machine.execBadLengthTruncated staged s
  | .unrecognisedPacket op table index data => Sys2Proof.Machine.execUnrecognisedPacket op table index data s
  | .lossOfPower backupFails => Sys2Proof.Machine.execLossOfPower backupFails s

end Sys2Proof.Machine
end

