-- ==== Sys2Proof/Machine/Timebase.lean ====
section
/-! DEFINITION. Machine/Timebase.lean: what the part does by itself when no command waits: one microsecond of the timebase
passes (R18), and the expiries that are then due are put in the queue (R25, R27, R30, R154; log 3, log 4). -/

namespace Sys2Proof.Machine

/-- The commands for the expiries that are due, in the order the free value gives when both the Show Clock's and the
watchdog's are (log 4). -/
def dueExpiries (s : State) : List Instr :=
  match clockExpiryDue s, watchdogDue s with
  | none, false => []
  | some c, false => [c]
  | none, true => [.watchdogExpiry]
  | some c, true => if Config.watchdogFirst s.free then [.watchdogExpiry, c] else [c, .watchdogExpiry]

/-- The timebase counts one microsecond (R18), in which no edge (log 25), no waiting commit (log 30) and no booth reset (log 29) has
been seen yet. -/
def countMicrosecond (s : State) : State :=
  (((s.setClock { s.clock with timebase := s.clock.timebase + 1#48, edgeSeen := false }).setSup
    { s.sup with watchdog := { s.sup.watchdog with tickSeen := false } }).setCount { s.count with commitSeen := false }).setPath
    { s.path with planesLost := [] }

/-- A microsecond passes with no command waiting (log 3); without supply the timebase stands (log 15). -/
def idle (s : State) : State :=
  if s.power.on then
    let t := countMicrosecond (quiet s)
    (t.setFree (t.free + 1)).setPending (dueExpiries t)
  else quiet s

end Sys2Proof.Machine
end

