-- ==== Sys2Proof/Safety.lean ====
section
/-! DEFINITION. Safety.lean: what the statements speak of: the conditions under which a request is received, the answers it
leaves, what an advance does whatever the order of the reactions, and the laws that every step keeps. -/

namespace Sys2Proof.Machine

/-! ### Requests and answers -/

/-- The link receives the transfer that ends: the part has supply, BRST_N is high, and booth reset has not cut the transfer off
(R157). -/
def Linked (s : State) : Prop := s.power.on = true ∧ s.power.brstLow = false ∧ s.link.cutOff = false

/-- The link after a request answered with a result and detail (R159). -/
def answered (l : Link) (r : LinkResult) (d : Nat) : Link := { l with result := r, detail := d, delta := 0 }

/-- The link after an accepted request that also sets events (R159, R162). -/
def answeredWith (l : Link) (events : BitVec 7) : Link :=
  { l with result := .ok, detail := 0, delta := 0, eventPending := l.eventPending ||| events }

/-- The state after a request that changes nothing but the link's answer (0.6, a refusal). -/
def refusedAs (s : State) (r : LinkResult) (d : Nat) : State := { s with link := answered s.link r d, out := {} }

/-- The state after a request, with the bytes of its transfer that the port acknowledged (R157). -/
def acknowledging (bytes : Nat) (t : State) : State := { t with out := { t.out with acked := bytes } }

/-- A row of a table of checks: whether it holds, and the refusal that a request is answered with when it does not. -/
structure Row where
  holds : Bool
  result : LinkResult
  detail : Nat

/-- A request under a table of checks: refused at the first row that fails, with nothing changed, else carried out. -/
def judged (s accepted : State) : List Row → State
  | [] => accepted
  | row :: rows => if row.holds then judged s accepted rows else refusedAs s row.result row.detail

/-- The Supervisor after the withdrawal of kinds is reported to it (R145). -/
def withdrawn (kinds : List FaultKind) (x : Supervisor) : Supervisor :=
  kinds.foldl (fun y k =>
    { y with faults := vput y.faults (faultIndex k) ({ y.faults[faultIndex k] with condition := false }) }) x

/-! ### The Show Clock leaving IDLE -/

/-- The Show Clock as START and RESUME leave it (R23), of a record `r`: `c` is the clock with the counts set as the command sets
them. -/
def leavesIdle (r : ShowRecord) (c : Clock) : Clock :=
  match r.sync with
  | .internal =>
    { c with
      consecutive := 0, lastAccepted := none, anchor := c.timebase, unitCount := 0, substate := .tracking
      expected := c.timebase + BitVec.ofNat 48 (1000000 * rateD r.editRate / rateN r.editRate) }
  | .projector =>
    { c with
      consecutive := 0, lastAccepted := none, substate := .awaitingAnchor
      anchorDeadline := some
        (c.timebase + BitVec.ofNat 48 ((c.lossLimit + 1) * (1000000 * rateD r.editRate / rateN r.editRate))) }

/-! ### Ramps -/

/-- The gain ramp record that a trigger toward a target leaves, by R93's bullets (log 33). -/
def rampTo (x : Sound) (target : RampTarget) : GainRamp :=
  let origin := match x.frontier with
    | some f => f + 1
    | none => 0
  { startSample := origin, startGain := gainAt x.ramp origin, target := target, length := x.rampLength }

/-! ### A raise -/

/-- The fault entry of a kind after a raise under a policy (R147). -/
def raisedEntry (p : Policy) (k : FaultKind) (e : FaultEntry) : FaultEntry where
  flag := e.flag || p ≠ .ignore
  raises := Nat.min (e.raises + 1) 255
  condition := e.condition || isConditionKind k
  latched := e.latched || p = .latch

/-- The state after a raise, as R147 and R151 give it.  Every raise is counted; under all policies but IGNORE the flag and the
FAULT event are set; TIMED makes the countdown the greater of itself and the blank length, unless a latch stands; LATCH
latches the kind and holds a RUNNING show.  When the output leaves OPEN in a primed show, or the show is held, the sound
ramps to silence (R94).  `before` is the gain ramp record before the event (log 8). -/
def afterRaise (before : GainRamp) (k : FaultKind) (s : State) : State :=
  let p := policyOfKind s k
  let held : Bool := p.policy = .latch && s.ctl.state = .running
  let leaves : Bool := outputCondition s = .openOutput && (p.policy = .timed || p.policy = .latch)
  { s with
    sup := { s.sup with
      faults := vput s.sup.faults (faultIndex k) (raisedEntry p.policy k (faultOf s k))
      countdown := if p.policy = .timed ∧ anyLatched s = false then Nat.max s.sup.countdown p.blank else s.sup.countdown }
    link := { s.link with
      eventPending := s.link.eventPending ||| (if p.policy = .ignore then 0#7 else 1#7) ||| (if held then 2#7 else 0#7) }
    ctl := if held then { s.ctl with state := .held } else s.ctl
    clock := if held then { s.clock with substate := .idle, anchorDeadline := none } else s.clock
    sound := { s.sound with
      ramp := if held || leaves && isPrimed s then rampTo { s.sound with ramp := before } .silence else s.sound.ramp
      activeMask := if held then s.sound.pendingMask else s.sound.activeMask } }

/-! ### The advance, whatever the order of its reactions -/

/-- The lanes after activation for p, of the cues of in unit below the bound (R109). -/
def lanesAfter (x : CueIntake) (p bound : Nat) : CueIntake :=
  { x with laneA := laneActivate p bound x.laneA, laneB := laneActivate p bound x.laneB }

/-- A late count after an advance (R85, R97): compared for a full show and a position below T alone. -/
def lateAfter (compared behind : Bool) (late : Nat) : Nat := if compared then nextLate behind late else late

/-- A starvation condition after an advance (R85, R97): active when the frontier lags and it was active or the late count has come
to the limit, not active when the frontier has caught up. -/
def starvedAfter (compared behind : Bool) (late limit : Nat) (starved : Bool) : Bool :=
  if compared then behind && (starved || decide (limit ≤ late)) else starved

/-- The fault entry of a condition kind by what its detector's condition was and is (R145, R147): raised once when the condition
becomes active, the Supervisor's copy cleared when it is withdrawn. -/
def conditionEntry (p : Policy) (k : FaultKind) (was now : Bool) (e : FaultEntry) : FaultEntry :=
  if !was && now then raisedEntry p k e else if was && !now then { e with condition := false } else e

/-- Position q enters a reel, of a full show, for which a key slot is LAPSED (R51). -/
def lapsesAt (s : State) (q : Nat) : Bool :=
  isFull s && match s.ctl.record with
    | some r => (reelEntered r q).any fun e => isLapsed s.keys[e.pictureKey] || isLapsed s.keys[e.soundKey]
    | none => false

/-- The condition kinds that the blocks raise at an advance. -/
def advanceKinds : List FaultKind := [.pictureStarved, .soundStarved, .keyLapsed]

/-- The advance commits a showing (R135): the show is full, p comes to C and the committed flag is clear; a full show has a record
and a reserved slot. -/
def CommitsAt (s : State) : Prop :=
  s.ctl.mark = .full ∧ s.ctl.position + 1 = s.ctl.commitUnit ∧ s.ctl.committed = false ∧ s.ctl.record.isSome = true ∧
    s.count.reserved.isSome = true

/-- The advance from `s` to `t` raised a kind: a condition kind when its condition has become active, STORE_FAIL when a commit
found the store FAILED (R140, R147). -/
def RaisedAt (s t : State) (k : FaultKind) : Prop :=
  (detectorOf s k = false ∧ detectorOf t k = true) ∨ (k = .storeFail ∧ CommitsAt s ∧ s.count.status = .failed)

/-- The advance raised no kind under TIMED or LATCH, so that nothing but the countdown moved the output. -/
def BlanksNothing (s t : State) : Prop :=
  ∀ k, RaisedAt s t k → (policyOfKind s k).policy ≠ .timed ∧ (policyOfKind s k).policy ≠ .latch

/-- The greatest blank length of some kinds; 0 of none. -/
def greatestBlank (s : State) (kinds : List FaultKind) : Nat :=
  (kinds.map fun k => (policyOfKind s k).blank).foldr Nat.max 0

/-- What an advance has done to the state, in every order of the reactions (R31, R50, R51, R85, R90, R94, R97, R109, R111, R134,
R135, R147 to R150).  `s` is the state as the Show Clock makes the advance.  `countdownOf` is R150 for any number of raises: the
kinds raised under TIMED before the Supervisor takes the advance, and those after it; `countdown` and `countdownOne` are its cases
of no such kind and of one.  The bound of `lanes` is T by R102 and T + 1 by R109, at the final advance alone (log 28).
The Show Clock goes on while the show does, and enters IDLE with it (R22); its counts and its anchor are the command's own. -/
structure Advanced (s t : State) : Prop where
  position : t.ctl.position = s.ctl.position + 1
  record : t.ctl.record = s.ctl.record
  mark : t.ctl.mark = s.ctl.mark
  commitUnit : t.ctl.commitUnit = s.ctl.commitUnit
  ended : s.ctl.position + 1 = showTotal s → t.ctl.state = .ended ∧ t.clock.substate = .idle
  endedEvent : s.ctl.position + 1 = showTotal s → t.link.eventPending.getLsbD 1 = true
  going : s.ctl.state = .running → s.ctl.position + 1 ≠ showTotal s → t.ctl.state = .running ∨ t.ctl.state = .held
  held : s.ctl.state = .running → s.ctl.position + 1 ≠ showTotal s →
    (t.ctl.state = .held ↔ ∃ k, RaisedAt s t k ∧ (policyOfKind s k).policy = .latch)
  showEvent : t.link.eventPending.getLsbD 1 = true ↔
    s.link.eventPending.getLsbD 1 = true ∨ s.ctl.position + 1 = showTotal s ∨ t.ctl.state ≠ s.ctl.state
  clockGoes : s.ctl.position + 1 ≠ showTotal s → t.ctl.state = s.ctl.state →
    t.clock.substate = s.clock.substate ∧ t.clock.anchorDeadline = s.clock.anchorDeadline
  clockStops : s.ctl.position + 1 = showTotal s ∨ t.ctl.state ≠ s.ctl.state →
    t.clock.substate = .idle ∧ t.clock.anchorDeadline = none
  clockParameters : t.clock.window = s.clock.window ∧ t.clock.lossLimit = s.clock.lossLimit
  lanes : ∃ bound, (bound = showTotal s ∨ s.ctl.position + 1 = showTotal s ∧ bound = showTotal s + 1) ∧
    t.cues = lanesAfter s.cues (s.ctl.position + 1) bound ∧
    t.link.eventPending.getLsbD 4 = (s.link.eventPending.getLsbD 4 || laneLow (s.ctl.position + 1) bound s.cues.laneA) ∧
    t.link.eventPending.getLsbD 5 = (s.link.eventPending.getLsbD 5 || laneLow (s.ctl.position + 1) bound s.cues.laneB)
  activeMask : t.sound.activeMask = s.sound.pendingMask
  pendingMask : t.sound.pendingMask = s.sound.pendingMask
  soundFrontier : t.sound.frontier = s.sound.frontier
  pictureFrontier : t.unpack.frontier = s.unpack.frontier
  pictureLate : t.unpack.late =
    lateAfter (isFull s && decide (s.ctl.position + 1 < showTotal s))
      (frontierBehind s.unpack.frontier (s.ctl.position + 1)) s.unpack.late
  soundLate : t.sound.late =
    lateAfter (isFull s && decide (s.ctl.position + 1 < showTotal s))
      (frontierBehind s.sound.frontier ((s.ctl.position + 1) * showSpu s)) s.sound.late
  pictureStarved : t.unpack.starved =
    starvedAfter (isFull s && decide (s.ctl.position + 1 < showTotal s))
      (frontierBehind s.unpack.frontier (s.ctl.position + 1)) t.unpack.late s.unpack.limit s.unpack.starved
  soundStarved : t.sound.starved =
    starvedAfter (isFull s && decide (s.ctl.position + 1 < showTotal s))
      (frontierBehind s.sound.frontier ((s.ctl.position + 1) * showSpu s)) t.sound.late s.sound.limit s.sound.starved
  keyLapsed : t.ctl.keyLapsed = (s.ctl.keyLapsed || lapsesAt s (s.ctl.position + 1))
  faults : ∀ k ∈ advanceKinds, faultOf t k =
    conditionEntry (policyOfKind s k).policy k (detectorOf s k) (detectorOf t k) (faultOf s k)
  raised : ∀ k ∈ advanceKinds, detectorOf s k = false → detectorOf t k = true →
    ((policyOfKind s k).policy ≠ .ignore → t.link.eventPending.getLsbD 0 = true) ∧
    ((policyOfKind s k).policy = .latch → outputCondition t = .blankLatched ∧ t.ctl.state ≠ .running)
  faultEvent : t.link.eventPending.getLsbD 0 = true ↔
    s.link.eventPending.getLsbD 0 = true ∨ ∃ k, RaisedAt s t k ∧ (policyOfKind s k).policy ≠ .ignore
  otherFaults : ∀ k, k = .unitCheck ∨ k = .watchdog ∨ k = .cueOverrun ∨ k = .access → faultOf t k = faultOf s k
  storeFailed : CommitsAt s → s.count.status = .failed →
    faultOf t .storeFail = raisedEntry (policyOfKind s .storeFail).policy .storeFail (faultOf s .storeFail)
  storeNotFailed : ¬ (CommitsAt s ∧ s.count.status = .failed) → faultOf t .storeFail = faultOf s .storeFail
  latched : anyLatched t = true ↔ anyLatched s = true ∨ ∃ k, RaisedAt s t k ∧ (policyOfKind s k).policy = .latch
  countdown : (∀ k, RaisedAt s t k → (policyOfKind s k).policy ≠ .timed) → t.sup.countdown = s.sup.countdown - 1
  countdownOne : ∀ k, RaisedAt s t k → (policyOfKind s k).policy = .timed → anyLatched t = false →
    (∀ j, RaisedAt s t j → (policyOfKind s j).policy = .timed → j = k) →
    t.sup.countdown = Nat.max (s.sup.countdown - 1) (policyOfKind s k).blank ∨
      t.sup.countdown = Nat.max s.sup.countdown (policyOfKind s k).blank - 1
  countdownOf : ∃ early late : List FaultKind, (early ++ late).Nodup ∧
    (∀ k ∈ early ++ late, RaisedAt s t k ∧ (policyOfKind s k).policy = .timed) ∧
    (anyLatched t = false → ∀ k, RaisedAt s t k → (policyOfKind s k).policy = .timed → k ∈ early ++ late) ∧
    (anyLatched s = true → early = [] ∧ late = []) ∧
    t.sup.countdown = Nat.max (Nat.max s.sup.countdown (greatestBlank s early) - 1) (greatestBlank s late)
  rampEnded : s.ctl.position + 1 = showTotal s → t.sound.ramp = rampTo s.sound .silence
  rampLeft : s.ctl.state = .running → s.ctl.position + 1 ≠ showTotal s →
    t.ctl.state = .held ∨ (outputCondition s = .openOutput ∧ outputCondition t ≠ .openOutput) →
    t.sound.ramp = rampTo s.sound .silence
  rampReturned : s.ctl.state = .running → s.ctl.position + 1 ≠ showTotal s →
    (∀ k, 1 ≤ (policyOfKind s k).blank) → outputCondition s ≠ .openOutput → outputCondition t = .openOutput →
    t.sound.ramp = rampTo s.sound .unity
  rampKept : s.ctl.state = .running → s.ctl.position + 1 ≠ showTotal s → BlanksNothing s t →
    outputCondition t = outputCondition s → t.sound.ramp = s.sound.ramp
  committed : CommitsAt s → t.ctl.committed = true
  uncounted : ¬ CommitsAt s → t.ctl.committed = s.ctl.committed ∧ t.count = { s.count with blanked := t.count.blanked } ∧
    ∀ e, e = 2 ∨ e = 3 ∨ e = 6 → t.link.eventPending.getLsbD e = s.link.eventPending.getLsbD e
  blankedNever : isFull s = false → t.count.blanked = s.count.blanked
  blanked : isFull s = true → anyLatched s = true ∨ 2 ≤ s.sup.countdown →
    t.count.blanked = Nat.min (s.count.blanked + 1) 65535
  blankedOpen : outputCondition s = .openOutput → outputCondition t = .openOutput →
    (∀ k, RaisedAt s t k → (policyOfKind s k).policy ≠ .timed) → t.count.blanked = s.count.blanked
  blankedEither : t.count.blanked = s.count.blanked ∨ t.count.blanked = Nat.min (s.count.blanked + 1) 65535
  pending : t.pending = s.pending
  power : t.power = s.power
  path : t.path = s.path
  keys : t.keys = s.keys
  secure : t.secure = s.secure
  overlay : t.overlay = s.overlay
  free : t.free = s.free + 1
  out : t.out = s.out
  ctlRest : t.ctl = { s.ctl with
    state := t.ctl.state, position := t.ctl.position, committed := t.ctl.committed, keyLapsed := t.ctl.keyLapsed }
  unpackRest : t.unpack = { s.unpack with late := t.unpack.late, starved := t.unpack.starved }
  soundRest : t.sound = { s.sound with
    ramp := t.sound.ramp, activeMask := t.sound.activeMask, late := t.sound.late, starved := t.sound.starved }
  supRest : t.sup = { s.sup with faults := t.sup.faults, countdown := t.sup.countdown }
  linkRest : t.link = { s.link with eventPending := t.link.eventPending }

/-- What the commit of a showing of the record `r` against slot `i`, of licence `l`, has done by the end of the advance to C (R135 to
R137, R139, R140): the counts, the sequence counter and the log in the RAM copy, the flag and the events, and the write.  The record's
output and blanked units are those that the Count Unit finds, which hang on the order of the reactions (R134, R136). -/
structure ShowingCommitted (s : State) (r : ShowRecord) (i : Fin 8) (l : Licence) (t : State) : Prop where
  committed : t.ctl.committed = true
  committedEvent : t.link.eventPending.getLsbD 2 = true
  logHigh : t.link.eventPending.getLsbD 3 = (s.link.eventPending.getLsbD 3 || decide (48 ≤ s.count.ram.log.length + 1))
  storeDone : t.link.eventPending.getLsbD 6 = s.link.eventPending.getLsbD 6
  sequence : t.count.ram.sequence = Nat.min (s.count.ram.sequence + 1) 18446744073709551615
  screenId : t.count.ram.screenId = s.count.ram.screenId
  log : ∃ output, t.count.ram.log = s.count.ram.log ++
      [{ sequence := t.count.ram.sequence, slot := i, licenceId := l.licenceId, compositionId := r.compositionId
         commitTime := s.secure.time, duration := totalDuration r, outputAtCommit := output, blanked := t.count.blanked }] ∧
    (s.count.blanked < 65535 → (output = .openOutput ↔ t.count.blanked = s.count.blanked)) ∧
    (anyLatched s = true → output = .blankLatched)
  licence : licenceOf t.count.ram.licences[i] = some { l with remaining := l.remaining - 1, used := l.used + 1 }
  others : ∀ j : Fin 8, j ≠ i → t.count.ram.licences[j] = s.count.ram.licences[j]
  ready : s.count.status = .ready → t.count = { s.count with
    ram := t.count.ram, blanked := t.count.blanked
    status := .busy (.commit [(i, t.count.ram.licences[i])] t.count.ram.log t.count.ram.sequence) }
  busy : ∀ w, s.count.status = .busy w → t.count = { s.count with
    ram := t.count.ram, blanked := t.count.blanked, commitSeen := true
    waiting := if i ∈ s.count.waiting then s.count.waiting else s.count.waiting ++ [i] }
  active : s.count.status ≠ .failed → ∀ k, s.count.ram.licences[i] = .active k → ∃ k', t.count.ram.licences[i] = .active k'
  failed : s.count.status = .failed → t.count = { s.count with ram := t.count.ram, blanked := t.count.blanked } ∧
    t.count.ram.licences[i] = .suspended { l with remaining := l.remaining - 1, used := l.used + 1 }

/-! ### Records as read -/

/-- The bytes of fields laid one after the other, each `(n, v)` the `n` bytes of the number `v`, most significant byte first
(R165). -/
def laid (fields : List (Nat × Nat)) : List Byte :=
  fields.flatMap fun (n, v) => (List.range n).map fun k => BitVec.ofNat 8 (v / 256 ^ (n - 1 - k))

/-- A flag at a bit of a byte or mask. -/
def bitAt (b : Bool) (i : Nat) : Nat := if b then 2 ^ i else 0

/-- A number of 16 bits, two's complement. -/
def twosComplement (v : Int) : Nat := (v % 65536).toNat

/-- A flag of each kind as a mask, bit i kind index i. -/
def maskOf (f : FaultKind → Bool) : Nat := (allKinds.map fun k => bitAt (f k) (faultIndex k).val).sum

/-- A field of what may be absent, returned as zero when it is. -/
def fieldOr {α : Type} (x : Option α) (f : α → Nat) : Nat := (x.map f).getD 0

/-- The fields of a REGION record (Table 11-13). -/
def regionFields (e : RegionEntry) : List (Nat × Nat) :=
  [(1, bitAt e.valid 0),
   (1, match e.kind with
     | .openMemory => 0 | .pictureEssence => 1 | .soundEssence => 2 | .frame => 3 | .plane => 4 | .cue => 5),
   (1, e.writers.toNat), (1, e.reel), (5, e.base), (4, e.size), (2, e.stride), (2, e.width), (2, e.height), (2, e.pitch),
   (1, bitAt (e.range = .limited) 0), (1, bitAt e.isProtected 0), (9, 0)]

/-- The fields of a KEY record as read (R59, Table 11-14): no material among them. -/
def keyRecordFields (x : KeySlot) : List (Nat × Nat) :=
  let fields (state : Nat) (f : KeyFields) (grace : Nat) : List (Nat × Nat) :=
    [(1, state), (1, match f.kind with | .picture => 1 | .sound => 2), (1, grace), (1, 0), (8, f.keyId.toNat),
     (8, f.nonce.toNat), (4, f.notBefore), (4, f.notAfter), (12, 0)]
  match x with
  | .empty => [(40, 0)]
  | .loaded f _ => fields 1 f 0
  | .inUse f _ => fields 2 f 0
  | .lapsed f _ grace => fields 3 f grace
  | .expired f => fields 4 f 0

/-- The fields of a LICENCE record as read (R130, Table 11-15). -/
def licenceFields (x : LicenceSlot) (reserved : Bool) : List (Nat × Nat) :=
  let field (f : Licence → Nat) : Nat := fieldOr (licenceOf x) f
  [(1, match x with | .empty => 0 | .active _ => 1 | .suspended _ => 2), (1, bitAt reserved 0), (4, field (·.licenceId.toNat)),
   (8, field (·.compositionId.toNat)), (2, field (·.granted)), (2, field (·.remaining)), (2, field (·.used)),
   (4, field (·.notBefore)), (4, field (·.notAfter)), (2, field (·.permille)), (2, field (·.screenId.toNat)), (16, 0)]

/-- The fields of a SHOW record (R37, Table 11-16), its reels after its first 16 bytes. -/
def showFields (record : Option ShowRecord) : List (Nat × Nat) :=
  match record with
  | none => [(16, 0)]
  | some r =>
    [(8, r.compositionId.toNat), (1, r.licenceSlot.val),
     (1, match r.editRate with
       | .r24 => 0 | .r25 => 1 | .r30 => 2 | .r48 => 3 | .r50 => 4 | .r60 => 5 | .r24000over1001 => 6),
     (1, match r.sampleRate with | .hz48000 => 0 | .hz96000 => 1), (1, r.channels),
     (1, match r.sync with | .projector => 0 | .internal => 1), (1, r.lead), (1, r.trail), (1, r.reels.length)] ++
    r.reels.flatMap fun e =>
      [(3, e.duration), (1, e.pictureRegion.val), (1, e.soundRegion.val), (1, e.pictureKey.val), (1, e.soundKey.val), (1, 0)]

/-- The fields of a FILTER record, by its index (R113, Table 11-17). -/
def filterFields (c : CueIntake) (index : Nat) : List (Nat × Nat) :=
  let action (a : FilterAction) : Nat := match a with | .laneA => 0 | .laneB => 1 | .reject => 2
  let lane (x : Lane) : List (Nat × Nat) :=
    let update := x.active.bind (·.update)
    [(1, x.lowMark), (1, x.queue.length), (1, bitAt x.active.isSome 0 + bitAt update.isSome 1 + bitAt (x.queue ≠ []) 2), (1, 0),
     (4, fieldOr x.active (·.cue.number)), (3, fieldOr x.active (·.cue.inUnit)), (3, fieldOr x.active (·.cue.outUnit)),
     (1, fieldOr x.active (·.cue.fadeDown)), (1, fieldOr update (·.fadeDown)), (3, fieldOr update (·.outUnit)), (1, 0),
     (4, fieldOr x.queue.head? (·.number)), (3, fieldOr x.queue.head? (·.inUnit)), (1, 0), (2, x.counts.inserted),
     (2, x.counts.replaced), (2, x.counts.updated), (2, x.counts.late), (2, x.counts.overrun), (2, x.counts.skipped),
     (2, x.counts.cut), (2, x.counts.retired), (4, 0)]
  if h : index < 8 then
    let f := c.filters[index]
    [(1, bitAt f.enabled 0), (1, action f.action), (2, f.matchValue.toNat), (2, f.mask.toNat), (2, 0)]
  else if index = 8 then
    [(1, action c.defaultAction), (3, 0), (4, c.counts.taken), (4, c.counts.partialLines), (4, c.counts.malformed),
     (4, c.counts.rejected), (4, c.counts.ignored)]
  else if index = 9 then lane c.laneA
  else lane c.laneB

/-- The fields of a POLICY record, by its kind (R146, Table 11-18). -/
def policyFields (s : State) (k : FaultKind) : List (Nat × Nat) :=
  [(1, match (policyOfKind s k).policy with | .ignore => 0 | .report => 1 | .timed => 2 | .latch => 3),
   (1, (policyOfKind s k).blank), (1, bitAt (policyOfKind s k).lineFlag 0)] ++
  (match k with
    | .pictureStarved => [(1, s.unpack.limit), (2, 0)]
    | .soundStarved => [(1, s.sound.limit), (2, s.sound.rampLength)]
    | .watchdog => [(1, bitAt s.sup.watchdog.enabled 0), (1, s.sup.watchdog.interval), (1, 0)]
    | .syncLoss | .unitCheck | .keyLapsed | .cueOverrun | .access | .storeFail => [(3, 0)]) ++ [(2, 0)]

/-- The code of an output condition (Tables 11-10, 11-19). -/
def conditionCode : OutputCondition → Nat
  | .openOutput => 0 | .blankTimed => 1 | .blankLatched => 2

/-- The fields of the STATUS record (R145, R158, Table 11-19). -/
def statusFields (s : State) : List (Nat × Nat) :=
  let withheld (c : WithheldCounts) : List (Nat × Nat) := [(4, c.state), (4, c.outsideReel), (4, c.window), (4, c.key)]
  let x := s.unpack.unitCheck
  let y := s.path.access
  [(1, match s.ctl.state with | .empty => 0 | .loaded => 1 | .primed => 2 | .running => 3 | .held => 4 | .ended => 5),
   (1, match s.ctl.mark with | .none => 0 | .full => 1 | .preview => 2),
   (1, bitAt s.ctl.committed 0 + bitAt s.unpack.frontier.isSome 1 + bitAt s.sound.frontier.isSome 2 + bitAt x.isSome 3 +
     bitAt y.isSome 4 + bitAt s.overlay.enableA 5 + bitAt s.overlay.enableB 6 + bitAt (s.sound.ramp.target = .unity) 7),
   (1, fieldOr s.ctl.record (currentReel · s.ctl.position)), (3, s.ctl.position), (3, s.ctl.commitUnit), (2, s.count.blanked),
   (3, fieldOr s.ctl.record totalDuration), (2, fieldOr s.ctl.record samplesPerUnit)] ++
  ((List.range 16).map fun i => (3, fieldOr s.ctl.record (reelStart · i))) ++
  [(1, bitAt s.secure.valid 0 + bitAt s.secure.yearOpen 1), (4, s.secure.time), (4, s.secure.elapsed),
   (2, twosComplement s.secure.trimSum)] ++ withheld s.unpack.withheldPicture ++ withheld s.unpack.withheldSound ++
  [(4, s.path.rawPicture), (4, s.path.rawSound), (4, s.unpack.checkedUnits), (4, s.unpack.uncheckedUnits),
   (3, fieldOr s.unpack.frontier id), (1, s.unpack.late),
   (1, fieldOr x fun r => match r.cause with | .number => 0 | .length => 1 | .crc => 2), (3, fieldOr x (·.unit)),
   (1, fieldOr x (·.reel)), (2, fieldOr x (·.further)), (5, fieldOr s.sound.frontier id), (1, s.sound.late),
   (2, s.sound.pendingMask.toNat), (2, s.sound.activeMask.toNat), (5, s.sound.ramp.startSample), (2, s.sound.ramp.startGain),
   (2, s.sound.ramp.length), (4, s.overlay.sideFailures), (4, s.overlay.unmatched),
   (1, fieldOr y fun r => originatorTag r.who + bitAt (r.cause = .protectedRead) 7), (1, fieldOr (y.bind (·.region)) (·.val)),
   (5, fieldOr y (·.line)), (2, fieldOr y (·.further)), (1, s.count.ram.log.length), (8, s.count.ram.sequence),
   (2, s.count.ram.screenId.toNat), (1, match s.count.status with | .ready => 0 | .busy _ => 1 | .failed => 2),
   (1, conditionCode (outputCondition s)), (1, s.sup.countdown), (2, maskOf fun k => (faultOf s k).flag),
   (2, maskOf fun k => isConditionKind k && (faultOf s k).condition), (2, maskOf fun k => (faultOf s k).latched)] ++
  allKinds.map fun k => (1, (faultOf s k).raises)

/-- The fields of a log record (R136, Table 11-10). -/
def logFields (r : LogRecord) : List (Nat × Nat) :=
  [(8, r.sequence), (1, r.slot.val), (4, r.licenceId.toNat), (8, r.compositionId.toNat), (4, r.commitTime), (3, r.duration),
   (1, conditionCode r.outputAtCommit), (2, r.blanked)]

/-- The fields of the CLOCK record (2.8, Table 11-21). -/
def clockFields (c : Clock) : List (Nat × Nat) :=
  [(1, match c.substate with | .idle => 0 | .awaitingAnchor => 1 | .tracking => 2), (1, bitAt c.lastAccepted.isSome 0),
   (6, c.timebase.toNat), (6, c.anchor.toNat), (3, c.unitCount), (6, c.expected.toNat), (2, c.window), (1, c.lossLimit),
   (4, c.edges), (4, c.accepted), (4, c.glitches), (4, c.missed), (1, c.consecutive), (6, fieldOr c.lastAccepted (·.toNat)),
   (4, c.period), (1, c.span), (10, 0)]

/-- The fields of the LINK record (R159, Tables 11-3, 11-22). -/
def linkFields (l : Link) : List (Nat × Nat) :=
  [(1, match l.result with
     | .ok => 0 | .badCrc => 1 | .badTable => 2 | .badIndex => 3 | .badLength => 4 | .refusedState => 5 | .refusedValue => 6
     | .busy => 7 | .keyWrap => 8 | .storeFailed => 9),
   (1, l.detail), (2, twosComplement l.delta)]

/-- The fields of a record as read, each with its length in bytes, in the order of its table (Tables 11-10, 11-12 to 11-22). -/
def recordFields (s : State) (t : LinkTable) (index : Nat) : List (Nat × Nat) :=
  match t with
  | .ident =>
    [(2, 640), (1, 1), (1, 88 + s.power.straps.toNat), (1, 24), (1, 16), (1, 8), (1, 64), (1, 2), (1, 16), (1, 8), (1, 9), (4, 0)]
  | .region => regionFields s.path.regions[Fin.ofNat 24 index]
  | .key => keyRecordFields s.keys[Fin.ofNat 16 index]
  | .licence =>
    licenceFields s.count.ram.licences[Fin.ofNat 8 index] (decide (s.count.reserved.map (·.val) = some index))
  | .showing => showFields s.ctl.record
  | .filter => filterFields s.cues index
  | .policy => ((allKinds[index]?).map (policyFields s)).getD []
  | .status => statusFields s
  | .log => ((s.count.ram.log[index]?).map logFields).getD []
  | .events => [(1, s.link.eventPending.toNat), (1, s.link.eventEnables.toNat), (1, s.link.eventSelects.toNat), (1, 0)]
  | .clock => clockFields s.clock
  | .link => linkFields s.link

/-- The packet of a request of the link: its op, table and index, and the fields of its data, in the order of its table (Tables 11-1,
11-2, 11-13, 11-16 to 11-18, 11-20, 11-21). -/
def requestFields : Instr → Option (Nat × Nat × Nat × List (Nat × Nat))
  | .regionRecord i w => some (1, 1, i.val,
    [(1, bitAt w.valid 0), (1, w.kind.toNat), (1, w.writers.toNat), (1, w.reel.toNat), (5, w.base.toNat), (4, w.size.toNat),
     (2, w.stride.toNat), (2, w.width.toNat), (2, w.height.toNat), (2, w.pitch.toNat), (1, bitAt w.limited 0),
     (1, bitAt w.isProtected 0), (9, 0)])
  | .loadKey i blob check => some (1, 2, i.val, [(48, blob.toNat), (4, check.toNat)])
  | .loadLicence i blob check => some (1, 3, i.val, [(48, blob.toNat), (4, check.toNat)])
  | .loadShow w => some (1, 4, 0,
    [(8, w.compositionId.toNat), (1, w.licenceSlot.toNat), (1, w.editRate.toNat), (1, w.sampleRate.toNat),
     (1, w.channels.toNat), (1, w.sync.toNat), (1, w.lead.toNat), (1, w.trail.toNat), (1, w.reels.length)] ++
    w.reels.flatMap fun e =>
      [(3, e.duration.toNat), (1, e.pictureRegion.toNat), (1, e.soundRegion.toNat), (1, e.pictureKey.toNat),
       (1, e.soundKey.toNat), (1, 0)])
  | .writeFilter i w => some (1, 5, i.val,
    [(1, bitAt w.enabled 0), (1, w.action.toNat), (2, w.matchValue.toNat), (2, w.mask.toNat), (2, 0)])
  | .writeDefaultAction a => some (1, 5, 8, [(1, a.toNat), (23, 0)])
  | .writeLowMark lane m => some (1, 5, match lane with | .a => 9 | .b => 10, [(1, m.toNat), (47, 0)])
  | .writePolicy k w => some (1, 6, (faultIndex k).val,
    [(1, w.policy.toNat), (1, w.blank.toNat), (1, bitAt w.lineFlag 0), (1, w.byte3.toNat), (1, w.byte4.toNat),
     (1, w.byte5.toNat), (2, 0)])
  | .writeEvents e l => some (1, 9, 0, [(1, 0), (1, e.toNat), (1, l.toNat), (1, 0)])
  | .writeClock w l => some (1, 10, 0, [(23, 0), (2, w.toNat), (1, l.toNat), (38, 0)])
  | .readRecord t i => some (2, match t with
    | .ident => 0 | .region => 1 | .key => 2 | .licence => 3 | .showing => 4 | .filter => 5 | .policy => 6 | .status => 7
    | .log => 8 | .events => 9 | .clock => 10 | .link => 11, i.toNat, [])
  | .prime => some (3, 1, 0, [])
  | .primePreview => some (3, 2, 0, [])
  | .start => some (3, 3, 0, [])
  | .hold => some (3, 4, 0, [])
  | .resume => some (3, 5, 0, [])
  | .stop => some (3, 6, 0, [])
  | .unload => some (3, 7, 0, [])
  | .clearFaults m => some (3, 8, 0, [(2, m.toNat)])
  | .tickle => some (3, 9, 0, [])
  | .setMute m => some (3, 10, 0, [(2, m.toNat)])
  | .laneEnable b => some (3, 11, 0, [(1, b.toNat)])
  | .purgeKey i => some (3, 12, i.val, [])
  | .deleteLicence i => some (3, 13, i.val, [])
  | .popLog n => some (3, 14, 0, [(8, n.toNat)])
  | .setTime v => some (3, 15, 0, [(4, v.toNat)])
  | .trimTime d => some (3, 16, 0, [(2, d.toNat)])
  | .setScreen v => some (3, 17, 0, [(2, v.toNat)])
  | .ackEvents m => some (3, 18, 0, [(1, m.toNat)])
  | .reset => some (3, 19, 0, [])
  | .lineRead _ _ | .lineWrite _ _ _ _ | .readReturn _ _ | .sideReadReturn _ _ _ | .writeCompletion _ _ | .fsyncInEdge
  | .windowExpiry | .anchorTimeout | .internalExpiry | .keyExpiry _ | .secureTick | .trimYearClose
  | .storeWriteCompletion | .storeWriteFailure | .wdTick | .watchdogExpiry | .boothReset _ | .brstNRelease
  | .powerOnReset _ _ _ | .readTransfer _ | .badCrc _ | .badLengthTruncated _ | .unrecognisedPacket _ _ _ _
  | .lossOfPower _ => none

/-- A key slot with its content key changed. -/
def withMaterial (g : BitVec 128 → BitVec 128) : KeySlot → KeySlot
  | .empty => .empty
  | .loaded f m => .loaded f (g m)
  | .inUse f m => .inUse f (g m)
  | .lapsed f m grace => .lapsed f (g m) grace
  | .expired f => .expired f

/-! ### Laws that every step keeps -/

/-- A VALID entry holds what R3 and R6 admit. -/
def entryOk (e : RegionEntry) : Bool :=
  decide (1 ≤ e.size) && decide (e.size ≤ 268435456) && decide (e.base + e.size ≤ 17179869184) &&
    (!isEssence e.kind || decide (e.reel ≤ 15)) &&
    (e.kind != .pictureEssence || (decide (2 ≤ e.stride) && decide (e.stride ≤ 65535))) &&
    (!hasGeometry e.kind || geometryOk e)

/-- The fields a kind does not have are zero, FULL and not protected (R3). -/
def fieldsKept (e : RegionEntry) : Prop :=
  (isEssence e.kind = false → e.reel = 0) ∧ (e.kind ≠ .pictureEssence → e.stride = 0) ∧
    (hasGeometry e.kind = false → e.width = 0 ∧ e.height = 0 ∧ e.pitch = 0) ∧
    (e.kind ≠ .frame → e.range = .full ∧ e.isProtected = false)

/-- The Region Table holds entries in range, and no two VALID entries share a line (R3, R4, R6). -/
def RegionsOk (s : State) : Prop :=
  ∀ i : Fin 24, fieldsKept s.path.regions[i] ∧
    (s.path.regions[i].valid = true → entryOk s.path.regions[i] = true ∧
      ∀ j : Fin 24, j ≠ i → s.path.regions[j].valid = true → rangesMeet s.path.regions[i] s.path.regions[j] = false)

/-- Every parameter lies in the range its rule gives (R21, R85, R91, R92, R97, R111, R145, R146, R154). -/
def ParametersOk (s : State) : Prop :=
  (100 ≤ s.clock.window ∧ s.clock.window ≤ 4000) ∧ (1 ≤ s.clock.lossLimit ∧ s.clock.lossLimit ≤ 15) ∧
    (1 ≤ s.unpack.limit ∧ s.unpack.limit ≤ 8) ∧ (1 ≤ s.sound.limit ∧ s.sound.limit ≤ 8) ∧
    s.sound.rampLength ≤ 9600 ∧ s.sound.ramp.startGain ≤ 32768 ∧ s.sound.ramp.length ≤ 9600 ∧
    s.cues.laneA.lowMark ≤ 15 ∧ s.cues.laneB.lowMark ≤ 15 ∧
    (s.sup.watchdog.interval = 1 ∨ s.sup.watchdog.interval = 2 ∨ s.sup.watchdog.interval = 5 ∨
      s.sup.watchdog.interval = 10) ∧
    ∀ k, policyAllowed k (policyOfKind s k).policy = true ∧ 1 ≤ (policyOfKind s k).blank ∧ (policyOfKind s k).blank ≤ 255

/-- The Secure Clock's law (R65, R68, R69); while TIME_INVALID every key slot is EMPTY (R67). -/
def SecureOk (s : State) : Prop :=
  s.secure.time ≤ 4294967295 ∧ (-360 ≤ s.secure.trimSum ∧ s.secure.trimSum ≤ 360) ∧ s.secure.elapsed < 31536000 ∧
    (s.secure.yearOpen = false → s.secure.elapsed = 0 ∧ s.secure.trimSum = 0) ∧
    (s.secure.valid = false → s.secure.time = 0 ∧ s.secure.yearOpen = false ∧ ∀ i : Fin 16, s.keys[i] = .empty)

/-- The numbers of a lane's cues, the active one first. -/
def cueNumbers (x : Lane) : List Nat := (x.active.map (·.cue.number)).toList ++ x.queue.map (·.number)

/-- One lane's law (R106): at most 16 queued cues, in order of in unit, and no number twice. -/
def laneOk (x : Lane) : Prop :=
  x.queue.length ≤ 16 ∧ x.queue.Pairwise (fun c d => c.inUnit ≤ d.inUnit) ∧ (cueNumbers x).Nodup

/-- Both lanes keep R106. -/
def LanesOk (s : State) : Prop := laneOk s.cues.laneA ∧ laneOk s.cues.laneB

/-- A TRACKING context expects a line from 1 to m (R80). -/
def contextOk (c : UnitContext) : Prop := 1 ≤ c.expectedLine ∧ c.expectedLine ≤ payloadLines c.length

/-- The unit-check contexts keep R80 and R83: no unit is tracked by both, and one was used more recently. -/
def ContextsOk (s : State) : Prop :=
  (∀ c, s.unpack.context0 = some c → contextOk c) ∧ (∀ c, s.unpack.context1 = some c → contextOk c) ∧
    ∀ c d, s.unpack.context0 = some c → s.unpack.context1 = some d → c.unit ≠ d.unit ∧ c.recent ≠ d.recent

/-- The show's law (R37, R41, 2.3): when there is a record and a mark, where p lies, and when the Show Clock is not IDLE. -/
def ShowOk (s : State) : Prop :=
  (s.ctl.record = none ↔ s.ctl.state = .empty) ∧
    (s.ctl.mark = .none ↔ s.ctl.state = .empty ∨ s.ctl.state = .loaded) ∧
    (s.ctl.state = .empty ∨ s.ctl.state = .loaded ∨ s.ctl.state = .primed → s.ctl.position = 0) ∧
    (∀ r, s.ctl.record = some r → 1 ≤ totalDuration r ∧ s.ctl.position ≤ totalDuration r ∧
      (s.ctl.position = totalDuration r ↔ s.ctl.state = .ended)) ∧
    (s.clock.substate ≠ .idle → s.ctl.state = .running)

/-- A key slot is IN_USE or LAPSED. -/
def isHeld : KeySlot → Bool
  | .inUse _ _ | .lapsed _ _ _ => true
  | .empty | .loaded _ _ | .expired _ => false

/-- Every key slot that the record of a full show names is IN_USE or LAPSED (R44). -/
def KeysOk (s : State) : Prop :=
  s.ctl.mark = .full → ∀ r, s.ctl.record = some r → ∀ i ∈ namedKeys r, isHeld s.keys[i] = true

/-- The Supervisor's copy of every condition is the detector's own (R145). -/
def CopiesOk (s : State) : Prop := ∀ k, (faultOf s k).condition = detectorOf s k

/-- A licence slot's counts (R129). -/
def licenceCounts (x : LicenceSlot) : Prop :=
  ∀ l, licenceOf x = some l → l.remaining + l.used = l.granted ∧ 1 ≤ l.granted ∧ l.granted ≤ 65535

/-- The records of a log that name a slot. -/
def namingRecords (log : List LogRecord) (i : Fin 8) : Nat := (log.filter fun r => r.slot == i).length

/-- The law of an image of the store (R129, R136, R137): the licence counts, at most 64 records, a sequence counter of 64 bits, the
records' numbers strictly increasing (while the counter has not stopped at its maximum) and at most the counter, and for each
slot no more records than showings used. -/
def ImageOk (m : CountImage) : Prop :=
  (∀ i : Fin 8, licenceCounts m.licences[i]) ∧ m.log.length ≤ 64 ∧ m.sequence ≤ maxSequence ∧
    (m.sequence < maxSequence → m.log.Pairwise fun a b => a.sequence < b.sequence) ∧
    (∀ r ∈ m.log, r.sequence ≤ m.sequence) ∧ (∀ i : Fin 8, namingRecords m.log i ≤ usedOf m.licences[i])

/-- How the store stands to the RAM copy (R139): equal when READY; when BUSY, what the write in flight leaves is lawful and
differs from the RAM copy in the commits that wait alone. -/
def StoreOk (c : CountUnit) : Prop :=
  match c.status with
  | .ready => c.store = c.ram ∧ c.waiting = []
  | .busy w =>
    let after := programWrite w c.store
    ImageOk after ∧ (c.waiting = [] → after = c.ram) ∧ after.screenId = c.ram.screenId ∧
      ∀ i : Fin 8, i ∉ c.waiting → after.licences[i] = c.ram.licences[i]
  | .failed => c.waiting = []

/-- A full show that has not committed has a slot with a showing left and room in the log (R135). -/
def ReservationOk (s : State) : Prop :=
  s.ctl.mark = .full → s.ctl.committed = false →
    s.count.ram.log.length < 64 ∧
      ∃ i l, s.count.reserved = some i ∧ licenceOf s.count.ram.licences[i] = some l ∧ 1 ≤ l.remaining

/-- The Count Unit's law. -/
def CountsOk (s : State) : Prop :=
  ImageOk s.count.ram ∧ ImageOk s.count.store ∧ StoreOk s.count ∧ ReservationOk s

end Sys2Proof.Machine
end

