-- ==== Sys2Proof/WellFormed.lean ====
section
/-! DEFINITION. WellFormed.lean: which terms of `Instr` are commands the part can receive.  The types of the operands already
hold most bounds; what is left are the packets, whose bytes must be of the sort their row names. -/

namespace Sys2Proof

/-- A SHOW record fits the length byte of a packet: 16 + 8 × reel count is at most 255 (Tables 11-1, 11-11). -/
def showFits (w : ShowWrite) : Bool := decide (w.reels.length ≤ 29)

/-- A READ RECORD that has passed R158: its index lies in the table's range. -/
def readPasses (t : LinkTable) (index : Byte) : Bool := decide (index.toNat < tableIndexes t)

/-- A whole packet whose CRC byte does not check (R157). -/
def crcFails (packet : List Byte) : Bool := packetWhole packet && !packetCrcOk packet

/-- A write transfer ended before its CRC byte: its address byte has arrived, its CRC byte has not (R157). -/
def endsEarly (staged : List Byte) : Bool := decide (0 < staged.length) && !packetWhole staged

/-- A checked packet that dispatch refuses under R158; its data fits the length byte. -/
def dispatchRefuses (op table index : Byte) (data : List Byte) : Bool :=
  (linkRefusal op table index data).isSome && decide (data.length ≤ 255)

/-- A transfer has had no more bytes acknowledged than the longest packet has (R157, Table 11-11). -/
def transferFits (midTransfer : Option Nat) : Bool := midTransfer.all fun n => decide (n ≤ packetLength 255)

/-- The command is one the part can receive. -/
def Instr.wellFormed : Instr → Bool
  | .loadShow w => showFits w
  | .readRecord t i => readPasses t i
  | .badCrc p => crcFails p
  | .badLengthTruncated p => endsEarly p
  | .unrecognisedPacket op t i d => dispatchRefuses op t i d
  | .boothReset m => transferFits m
  | .lineRead _ _ | .lineWrite _ _ _ _ | .readReturn _ _ | .sideReadReturn _ _ _ | .writeCompletion _ _ | .fsyncInEdge
  | .windowExpiry | .anchorTimeout | .internalExpiry | .prime | .primePreview | .start | .hold | .resume | .stop | .unload
  | .regionRecord _ _ | .loadKey _ _ _ | .purgeKey _ | .keyExpiry _ | .secureTick | .trimYearClose | .setTime _
  | .trimTime _ | .loadLicence _ _ _ | .deleteLicence _ | .popLog _ | .setScreen _ | .storeWriteCompletion
  | .storeWriteFailure | .clearFaults _ | .tickle | .wdTick | .watchdogExpiry | .setMute _ | .laneEnable _ | .ackEvents _
  | .reset | .brstNRelease | .powerOnReset _ _ _ | .writeFilter _ _ | .writeDefaultAction _
  | .writeLowMark _ _ | .writePolicy _ _ | .writeEvents _ _ | .writeClock _ _ | .readTransfer _ | .lossOfPower _ => true

end Sys2Proof
end

