-- ==== Sys2Proof/Certificates/Slice0/Obligations.lean ====
section
/-! DEFINITION. Certificates/Slice0/Obligations.lean: the statements for the provers.  Most give the whole next state of a command
as an update of the state before it, so that what the update does not name is unchanged. -/

open Sys2Proof Sys2Proof.Machine

/-! ### The queue, idling, reset -/

/-- A step takes the command at the front of the queue and runs it on the state with the queue's rest. -/
def Obligations.StepRunsTheFrontCommand : Prop :=
  ∀ (c : Instr) (rest : List Instr) (s : State),
    step { s with pending := c :: rest } = exec c { s with pending := rest }

/-- With no command waiting a step is one microsecond (R18; the model's choice, log 3): the timebase counts on modulo 2^48,
the marks of the microsecond clear (log 25, log 29, log 30), and the expiries then due are queued; without supply nothing but the ports changes.
What is due, a time being before another when their signed difference modulo 2^48 is negative (R18): the window expiry after
E + W in TRACKING with the projector (R27), the internal expiry from E on with the internal source (R30), the anchor timeout
and the watchdog's expiry from their deadlines on (R25, R154); at most one of the Show Clock's, and the watchdog's before or
after it (a free value, log 4). -/
def Obligations.IdleStepCountsOneMicrosecond : Prop :=
  (∀ s : State, s.pending = [] →
    (s.power.on = true →
      let u : State := { s with
        clock := { s.clock with timebase := s.clock.timebase + 1#48, edgeSeen := false }
        sup := { s.sup with watchdog := { s.sup.watchdog with tickSeen := false } }
        count := { s.count with commitSeen := false }
        path := { s.path with planesLost := [] }
        out := {} }
      step s = .next { u with pending := dueExpiries u, free := s.free + 1 }) ∧
    (s.power.on = false → step s = .next { s with out := {} })) ∧
  (∀ x y : Time, timeBefore x y = true ↔ (x - y).toInt < 0) ∧
  (∀ s : State,
    let now := s.clock.timebase
    let before (x y : Time) : Prop := (x - y).toInt < 0
    (isInternal s = true ↔ ∃ r, s.ctl.record = some r ∧ r.sync = .internal) ∧
    (windowDue s = true ↔ s.clock.substate = .tracking ∧ isInternal s = false ∧
      before (s.clock.expected + BitVec.ofNat 48 s.clock.window) now) ∧
    (internalDue s = true ↔ s.clock.substate = .tracking ∧ isInternal s = true ∧ ¬ before now s.clock.expected) ∧
    (anchorDue s = true ↔ s.clock.substate = .awaitingAnchor ∧ ∃ d, s.clock.anchorDeadline = some d ∧ ¬ before now d) ∧
    (watchdogDue s = true ↔ ∃ d, s.sup.watchdog.deadline = some d ∧ ¬ before now d) ∧
    (let due (c : Instr) (b : Bool) : List Instr := if b then [c] else []
     let clock := due .windowExpiry (windowDue s) ++ due .internalExpiry (internalDue s) ++ due .anchorTimeout (anchorDue s)
     let dog := due .watchdogExpiry (watchdogDue s)
     clock.length ≤ 1 ∧ (dueExpiries s = clock ++ dog ∨ dueExpiries s = dog ++ clock)))

/-- The state after reset, block by block, every field at the value its rule gives for power-on reset, and every law of Safety.lean.
The powered part, the new store and the invalid secure time are the model's choice (log 1, log 2); the transaction number,
the marks of the microsecond and the free counter are the model's own fields (log 7, log 11, log 25, log 29, log 30). -/
def Obligations.ResetHoldsTheRulesValues : Prop :=
  let region : RegionEntry :=
    { valid := false, base := 0, size := 0, kind := .openMemory, writers := 0#8, reel := 0, stride := 0, width := 0,
      height := 0, pitch := 0, range := .full, isProtected := false }
  let withheld : WithheldCounts := { state := 0, outsideReel := 0, window := 0, key := 0 }
  let filter : Filter := { enabled := false, matchValue := 0#16, mask := 0#16, action := .laneA }
  let lane : Lane :=
    { queue := [], active := none, lowMark := 4
      counts := { inserted := 0, replaced := 0, updated := 0, late := 0, overrun := 0, skipped := 0, cut := 0, retired := 0 } }
  let image : CountImage := { licences := Vector.replicate 8 .empty, log := [], sequence := 0, screenId := 65535#16 }
  State.reset.pending = [] ∧
    State.reset.power = { on := true, brstLow := false, backupHeld := true, straps := 0#2 } ∧
    State.reset.path =
      { regions := Vector.replicate 24 region, rawPicture := 0, rawSound := 0, access := none, reads := [], writes := [],
        nextTxn := 0, planesLost := [] } ∧
    State.reset.clock =
      { timebase := 0#48, substate := .idle, anchor := 0#48, unitCount := 0, expected := 0#48, anchorDeadline := none,
        window := 1000, lossLimit := 3, edges := 0, accepted := 0, glitches := 0, missed := 0, consecutive := 0,
        lastAccepted := none, period := 0, span := 0, syncLoss := false, edgeSeen := false } ∧
    State.reset.ctl =
      { state := .empty, mark := .none, record := none, position := 0, committed := false, commitUnit := 0,
        keyLapsed := false } ∧
    (∀ i : Fin 16, State.reset.keys[i] = .empty) ∧
    State.reset.secure = { valid := false, time := 0, yearOpen := false, elapsed := 0, trimSum := 0 } ∧
    State.reset.unpack =
      { withheldPicture := withheld, withheldSound := withheld, context0 := none, context1 := none, checkedUnits := 0,
        uncheckedUnits := 0, unitCheck := none, frontier := none, late := 0, limit := 2, starved := false } ∧
    State.reset.sound =
      { pendingMask := 0#16, activeMask := 0#16
        ramp := { startSample := 0, startGain := 32768, target := .unity, length := 960 }
        rampLength := 960, frontier := none, late := 0, limit := 2, starved := false } ∧
    State.reset.cues =
      { filters := Vector.replicate 8 filter, defaultAction := .laneA
        counts := { taken := 0, partialLines := 0, malformed := 0, rejected := 0, ignored := 0 }, laneA := lane, laneB := lane } ∧
    State.reset.overlay = { enableA := true, enableB := true, sideFailures := 0, unmatched := 0 } ∧
    State.reset.count =
      { ram := image, store := image, status := .ready, waiting := [], commitSeen := false, reloadDue := false,
        reserved := none, blanked := 0 } ∧
    (∀ k, faultOf State.reset k = { flag := false, raises := 0, condition := false, latched := false } ∧
      policyOfKind State.reset k =
        { policy := match k with
            | .syncLoss | .keyLapsed | .storeFail => .latch
            | .pictureStarved | .unitCheck => .timed
            | .soundStarved | .cueOverrun | .access => .report
            | .watchdog => .ignore
          blank := 24
          lineFlag := k = .syncLoss || k = .keyLapsed || k = .storeFail }) ∧
    State.reset.sup.countdown = 0 ∧
    State.reset.sup.watchdog = { enabled := false, interval := 2, deadline := none, condition := false, tickSeen := false } ∧
    State.reset.link =
      { result := .ok, detail := 0, delta := 0, snapshot := { result := .ok, bytes := [] }, cutOff := false,
        eventPending := 0#7, eventEnables := 0#7, eventSelects := 0#7 } ∧
    State.reset.out = { up := [], down := [], link := [], acked := 0 } ∧
    outputCondition State.reset = .openOutput ∧ boothFaultLow State.reset = false ∧ attnA State.reset = false ∧
    attnB State.reset = false ∧
    RegionsOk State.reset ∧ ParametersOk State.reset ∧ SecureOk State.reset ∧ LanesOk State.reset ∧ ContextsOk State.reset ∧
    ShowOk State.reset ∧ KeysOk State.reset ∧ CopiesOk State.reset ∧ CountsOk State.reset

/-! ### Memory path -/

/-- The routes of reads, row by row of Table 1-1 (R9); none is answered black.  A padding line of a FRAME region lies beyond its
rows, or beyond its width within its row (R4). -/
def Obligations.ReadRoutesFollowTheTable : Prop :=
  ∀ (b : Binding) (who : Originator),
    (b.kind = .openMemory ∨ b.kind = .plane ∨ b.kind = .cue → readRoute b who = some .plain) ∧
    (b.kind = .pictureEssence → readRoute b .decode = some .picture ∧ (who ≠ .decode → readRoute b who = some .raw)) ∧
    (b.kind = .soundEssence → readRoute b .audio = some .sound ∧ (who ≠ .audio → readRoute b who = some .raw)) ∧
    (isPadding b = true ↔ b.height * b.pitch ≤ b.offset ∨ b.width / 16 ≤ b.offset % b.pitch) ∧
    (b.kind = .frame → isPadding b = true → readRoute b who = some .plain) ∧
    (b.kind = .frame → isPadding b = false →
      readRoute b .scan = some .display ∧
      (b.isProtected = false → who ≠ .scan → readRoute b who = some .plain) ∧
      (b.isProtected = true → readRoute b .decode = some .plain ∧
        (who ≠ .decode → who ≠ .scan → readRoute b who = none)))

/-- LINE_READ on a read that is forwarded: it goes downstream with its line and tag at once, with the side reads a display read
names, is counted when raw, and is in flight with its binding and route; nothing else changes (R2, R4, R9, R10, R13).
What a display read names, lane A's first: of an active cue that is drawn and whose window covers the line, the plane line
that its pixels map to; nothing beyond the plane's geometry; a failed side read, nothing sent, where no PLANE entry stands
(R117 to R119).  What a line is bound to at its arrival (R4, R17): the VALID entry whose lines hold it, its index, its fields and
the offset A - base; OPEN with every originator in the mask where none does, and while BRST_N is low; a lawful table has at
most one such entry (R6). -/
def Obligations.LineReadIsForwarded : Prop :=
  (∀ (addr : BitVec 40) (who : Originator) (s : State) (route : Route), s.power.on = true →
    readRoute (classify s (addr.toNat / 64)) who = some route →
    let line := addr.toNat / 64
    let b := classify s line
    let named := if route = .display then nameSides s b else []
    exec (.lineRead addr who) s = .next { s with
      path := { s.path with
        reads := s.path.reads ++
          [{ txn := s.path.nextTxn, line := line, who := who, binding := b, route := route, frame := none,
             sides := named.map (·.side) }]
        nextTxn := s.path.nextTxn + 1
        rawPicture := if route = .raw ∧ b.kind = .pictureEssence then Nat.min (s.path.rawPicture + 1) 4294967295
          else s.path.rawPicture
        rawSound := if route = .raw ∧ b.kind = .soundEssence then Nat.min (s.path.rawSound + 1) 4294967295
          else s.path.rawSound }
      out := { down := .read s.path.nextTxn line who ::
        named.filterMap fun n => n.sent.map fun l => .sideRead s.path.nextTxn n.side.entry.lane l } }) ∧
  (∀ (s : State) (b : Binding), nameSides s b = (nameLane s b .a).toList ++ (nameLane s b .b).toList ∧
    ∀ lane : LaneId,
      ((cueLane s lane).active = none → nameLane s b lane = none) ∧
      ∀ active, (cueLane s lane).active = some active →
        let c := active.cue
        let y := b.offset / b.pitch
        let g := b.offset % b.pitch
        let plane := s.path.regions[c.plane]
        let drawn : Prop := (match lane with | .a => s.overlay.enableA | .b => s.overlay.enableB) = true ∨ c.forced = true
        let covers : Prop := (c.y0 ≤ y ∧ y < c.y0 + c.h) ∧ c.x0 ≤ 16 * g ∧ 16 * g < c.x0 + c.w
        let entry : DrawEntry :=
          { lane := lane, number := c.number, inUnit := c.inUnit, x0 := c.x0, y0 := c.y0, w := c.w, h := c.h, plane := c.plane,
            px := c.px, py := c.py }
        (¬ drawn ∨ ¬ covers → nameLane s b lane = none) ∧
        (drawn → covers →
          (plane.valid = true ∧ plane.kind = .plane → ∀ yp gp : Nat, (yp : Int) = c.py + y - c.y0 →
            16 * (gp : Int) = (c.px : Int) - c.x0 + 16 * g →
            nameLane s b lane = if yp < plane.height ∧ 16 * gp < plane.width then
              some { side := { entry := entry, status := .awaited }, sent := some (plane.base + (yp * plane.pitch + gp)) }
            else none) ∧
          (¬ (plane.valid = true ∧ plane.kind = .plane) →
            nameLane s b lane = some { side := { entry := entry, status := .failed }, sent := none }))) ∧
  (∀ (s : State) (line : Nat),
    let holds (i : Fin 24) : Prop := s.path.regions[i].valid = true ∧ s.path.regions[i].base ≤ line ∧
      line < s.path.regions[i].base + s.path.regions[i].size
    let unmatched : Binding :=
      { entry := none, kind := .openMemory, offset := line, writers := 255#8, reel := 0, stride := 0, width := 0, height := 0,
        pitch := 0, range := .full, isProtected := false }
    (s.power.brstLow = true → classify s line = unmatched) ∧
    ((∀ i, ¬ holds i) → classify s line = unmatched) ∧
    (s.power.brstLow = false → ∀ i, holds i → (∀ j, holds j → j = i) →
      let e := s.path.regions[i]
      classify s line =
        { entry := some i, kind := e.kind, offset := line - e.base, writers := e.writers, reel := e.reel, stride := e.stride,
          width := e.width, height := e.height, pitch := e.pitch, range := e.range, isProtected := e.isProtected }) ∧
    (RegionsOk s → ∀ i j, holds i → holds j → j = i))

/-- What an ACCESS raise leaves, with the policy REPORT or IGNORE that R145 allows the kind: the raise is counted, and
under REPORT the flag and the FAULT event are set; the access record is filled, or its further raises counted (R16, R147).
LineReadIsForwarded gives the binding, and LineWriteIsForwarded the mask's test. -/
def Obligations.RefusedAccessIsRaised : Prop :=
  ∀ (addr : BitVec 40) (who : Originator) (data : Line) (enables : BitVec 64) (s : State), s.power.on = true →
    let line := addr.toNat / 64
    let b := classify s line
    let record (cause : AccessCause) : AccessRecord :=
      match s.path.access with
      | none => { cause := cause, who := who, region := b.entry, line := line, further := 0 }
      | some r => { r with further := Nat.min (r.further + 1) 65535 }
    let after (cause : AccessCause) (msg : UpMsg) (flagged : Bool) : State :=
      { s with
        path := { s.path with nextTxn := s.path.nextTxn + 1, access := some (record cause) }
        sup := { s.sup with faults := vput s.sup.faults 7 { (s.sup.faults[(7 : Fin 9)]) with
            raises := Nat.min (s.sup.faults[(7 : Fin 9)].raises + 1) 255
            flag := s.sup.faults[(7 : Fin 9)].flag || flagged } }
        link := if flagged then { s.link with eventPending := s.link.eventPending ||| 1#7 } else s.link
        out := { up := [msg] } }
    (readRoute b who = none →
      ((policyOfKind s .access).policy = .report →
        exec (.lineRead addr who) s =
          .next (after .protectedRead (.data s.path.nextTxn (blackLine b.range)) true)) ∧
      ((policyOfKind s .access).policy = .ignore →
        exec (.lineRead addr who) s =
          .next (after .protectedRead (.data s.path.nextTxn (blackLine b.range)) false))) ∧
    (mayWrite b who = false →
      ((policyOfKind s .access).policy = .report →
        exec (.lineWrite addr who data enables) s = .next (after .writeRefused (.writeError s.path.nextTxn) true)) ∧
      ((policyOfKind s .access).policy = .ignore →
        exec (.lineWrite addr who data enables) s = .next (after .writeRefused (.writeError s.path.nextTxn) false)))

/-- LINE_WRITE by an originator in the writers mask: forwarded with its data and enables unchanged, which are kept with its
binding until the completion (R14, R15); an address that no entry matches is OPEN to every originator (R4).  An originator is in
the mask when the bit of its tag is set (R14); LineReadIsForwarded gives the binding. -/
def Obligations.LineWriteIsForwarded : Prop :=
  (∀ (addr : BitVec 40) (who : Originator) (data : Line) (enables : BitVec 64) (s : State), s.power.on = true →
    let line := addr.toNat / 64
    let b := classify s line
    ((∀ i : Fin 24, ¬ (s.path.regions[i].valid = true ∧ s.path.regions[i].base ≤ line ∧
        line < s.path.regions[i].base + s.path.regions[i].size)) → b = openBinding line ∧ mayWrite b who = true) ∧
    (mayWrite b who = true →
      exec (.lineWrite addr who data enables) s = .next { s with
        path := { s.path with
          writes := s.path.writes ++
            [{ txn := s.path.nextTxn, line := line, who := who, binding := b, data := data, enables := enables }]
          nextTxn := s.path.nextTxn + 1 }
        out := { down := [.write s.path.nextTxn line who data enables] } })) ∧
  (∀ (b : Binding) (who : Originator), mayWrite b who = b.writers.getLsbD (match who with
    | .proc => 0 | .ingest => 1 | .decode => 2 | .scan => 3 | .audio => 4 | .aux0 => 5 | .aux1 => 6 | .aux2 => 7))

/-- READ_RETURN of a plain or raw read's data, unchanged, and of an error, whatever the route: an error response, no transform,
no frontier moved; a picture read's error abandons the context that tracks its unit, context 0's by `false` (R12, R76, R81).  The read
that an answer comes for is in flight under the answer's number, and its own answer has not come yet. -/
def Obligations.MemoryAnswersGoUpstream : Prop :=
  (∀ (txn : Nat) (line : Line) (s : State) (r : ReadInFlight), s.power.on = true → awaitedRead s txn = some r →
    let rest := { s.path with reads := s.path.reads.filter fun x => x.txn != r.txn }
    (r.route = .plain ∨ r.route = .raw →
      exec (.readReturn txn (.data line)) s = .next { s with path := rest, out := { up := [.data r.txn line] } }) ∧
    (r.route ≠ .picture →
      exec (.readReturn txn .error) s = .next { s with path := rest, out := { up := [.readError r.txn] } }) ∧
    (r.route = .picture → ∃ u, exec (.readReturn txn .error) s =
        .next { s with path := rest, unpack := u, out := { up := [.readError r.txn] } } ∧
      ((∀ p, mapPicture s r.binding = some p → trackedBy s.unpack p.unit = none) → u = s.unpack) ∧
      (∀ p i, mapPicture s r.binding = some p → trackedBy s.unpack p.unit = some i →
        u = { s.unpack with
          context0 := if i = true then s.unpack.context0 else none
          context1 := if i = true then none else s.unpack.context1
          uncheckedUnits := Nat.min (s.unpack.uncheckedUnits + 1) 4294967295 }))) ∧
  (∀ (u : Unpack) (unit : Nat),
    let tracks (c : Option UnitContext) : Prop := ∃ d, c = some d ∧ d.unit = unit
    (trackedBy u unit = some false ↔ tracks u.context0) ∧
    (trackedBy u unit = some true ↔ ¬ tracks u.context0 ∧ tracks u.context1)) ∧
  (∀ (s : State) (txn : Nat),
    (∀ r, awaitedRead s txn = some r → r ∈ s.path.reads ∧ r.txn = txn ∧ r.frame = none) ∧
    (awaitedRead s txn = none ↔ ∀ r ∈ s.path.reads, r.txn = txn → r.frame ≠ none))

/-- READ_RETURN of a picture read's data: withheld, zeros and one withheld count; opened, the exclusive-OR with the keystream,
the frontier raised by a header line and by nothing else, and no withheld count (R73 to R76, R84).  The gate, for picture and
sound alike, is four tests in order: the state; the reel; the window p - trail to p + lead, signed; the key slot (R72, R73).  A
picture read's offset falls in a unit of its reel, its line and its composition unit as R70 gives, if the entry is the one the
record names and the offset is within the reel; R74's counts move by their reason.  Byte k of the keystream is byte k mod 16 of the
block function's output for the counter block of block k / 16 (R75): nonce, line offset and block number, each most
significant byte first.  A frontier raised to a unit is that unit where it was none or less (R84, R96). -/
def Obligations.PictureReadReturns : Prop :=
  (∀ (txn : Nat) (line : Line) (s : State) (r : ReadInFlight), s.power.on = true → awaitedRead s txn = some r →
    r.route = .picture →
    let rest := { s.path with reads := s.path.reads.filter fun x => x.txn != r.txn }
    (∀ reason, gate .picture s r.binding = .withheld reason →
      exec (.readReturn txn (.data line)) s = .next { s with
        path := rest
        unpack := { s.unpack with withheldPicture := bumpWithheld reason s.unpack.withheldPicture }
        out := { up := [.data r.txn 0#512] } }) ∧
    (∀ place nonce material, gate .picture s r.binding = .opened place nonce material →
      ∃ t, exec (.readReturn txn (.data line)) s = .next t ∧
        t.out = { up := [.data r.txn (line ^^^ keystream material nonce r.binding.offset)] } ∧ t.path = rest ∧
        t.unpack.withheldPicture = s.unpack.withheldPicture ∧ t.unpack.withheldSound = s.unpack.withheldSound ∧
        t.unpack.frontier = (if place.line = 0 then raiseFrontier s.unpack.frontier place.unit else s.unpack.frontier) ∧
        t.pending = s.pending ∧ t.power = s.power ∧ t.keys = s.keys ∧ t.secure = s.secure ∧ t.cues = s.cues ∧
        t.overlay = s.overlay ∧ t.count = s.count ∧ t.free = s.free)) ∧
  (∀ (kind : EssenceKind) (s : State) (b : Binding),
    let showing : Prop := s.ctl.mark = .full ∧ (s.ctl.state = .primed ∨ s.ctl.state = .running ∨ s.ctl.state = .held)
    let placed := match kind with | .picture => mapPicture s b | .sound => mapSound s b
    (¬ showing → gate kind s b = .withheld .state) ∧
    (showing → placed = none → gate kind s b = .withheld .outsideReel) ∧
    ∀ r e place, showing → s.ctl.record = some r → r.reels[b.reel]? = some e → placed = some place →
      let slot := s.keys[match kind with | .picture => e.pictureKey | .sound => e.soundKey]
      let inside : Prop := (s.ctl.position : Int) - r.trail ≤ place.unit ∧ (place.unit : Int) ≤ s.ctl.position + r.lead
      (¬ inside → gate kind s b = .withheld .window) ∧
      (inside → gate kind s b = match slot with
        | .inUse f m => .opened place f.nonce m
        | .lapsed f m grace => if grace = b.reel then .opened place f.nonce m else .withheld .key
        | .empty | .loaded _ _ | .expired _ => .withheld .key)) ∧
  (∀ (s : State) (b : Binding),
    ((∀ r, s.ctl.record = some r → r.reels[b.reel]? = none) → mapPicture s b = none) ∧
    ∀ r e, s.ctl.record = some r → r.reels[b.reel]? = some e →
      mapPicture s b = if b.entry = some e.pictureRegion ∧ b.offset < e.duration * b.stride then
        some { reel := b.reel, within := b.offset / b.stride
               unit := ((r.reels.take b.reel).map (·.duration)).sum + b.offset / b.stride
               line := b.offset % b.stride, sample := 0 }
      else none) ∧
  (∀ (reason : WithheldReason) (c : WithheldCounts),
    let inc (n : Nat) : Nat := Nat.min (n + 1) 4294967295
    bumpWithheld reason c = match reason with
      | .state => { c with state := inc c.state }
      | .outsideReel => { c with outsideReel := inc c.outsideReel }
      | .window => { c with window := inc c.window }
      | .key => { c with key := inc c.key }) ∧
  (∀ (material counter : BitVec 128) (nonce : BitVec 64) (offset b : Nat), b < 4 →
    (∀ j, j < 16 → counter.extractLsb' (8 * j) 8 =
      if j < 8 then nonce.extractLsb' (8 * (7 - j)) 8
      else if j < 12 then BitVec.ofNat 8 (offset / 256 ^ (11 - j))
      else BitVec.ofNat 8 (b / 256 ^ (15 - j))) →
    ∀ j, j < 16 → (keystream material nonce offset).extractLsb' (8 * (16 * b + j)) 8 =
      (Config.blockFunction material counter).extractLsb' (8 * j) 8) ∧
  (∀ v : Nat, raiseFrontier none v = some v ∧ ∀ u : Nat, raiseFrontier (some u) v = if u < v then some v else some u)

/-- What an opened picture line does to the unit checks (R78 to R82): a false header raises UNIT_CHECK and frees its unit's context; a
true one completes an empty unit or claims a context, its own, a free one, or the least recently used; a payload line in turn
is folded and the last one judges the CRC; one out of turn abandons the context; a line of no tracked unit does nothing.
The whole next state: a raise does to the rest what `afterRaise` writes out (R147, R151), and without one nothing.  The header's
fields lie as Table 11-8 gives, least significant byte first (R165); a length of n bytes has ceil(n / 64) payload lines, the last with
what is left, and the CRC-32 takes a line's payload bytes in order, each in eight shifts toward the low-order end (R78). -/
def Obligations.PictureUnitsAreChecked : Prop :=
  (∀ (txn : Nat) (line : Line) (s : State) (r : ReadInFlight) (place : EssencePlace) (nonce : BitVec 64) (material : BitVec 128),
    s.power.on = true → awaitedRead s txn = some r → r.route = .picture →
    gate .picture s r.binding = .opened place nonce material → ContextsOk s →
    let opened := line ^^^ keystream material nonce r.binding.offset
    let x := s.unpack
    let bump (n : Nat) : Nat := Nat.min (n + 1) 4294967295
    let tracks (c : Option UnitContext) : Prop := ∃ d, c = some d ∧ d.unit = place.unit
    let freed : Unpack :=
      { x with
        context0 := x.context0.filter fun c => c.unit ≠ place.unit, context1 := x.context1.filter fun c => c.unit ≠ place.unit }
    let fresh : Option UnitContext := some
      { unit := place.unit, length := headerLength opened, crc := headerCrc opened, expectedLine := 1,
        register := BitVec.allOnes 32, recent := true }
    let older (c : Option UnitContext) : Option UnitContext := c.map fun d => { d with recent := false }
    let frontier := if place.line = 0 then raiseFrontier x.frontier place.unit else x.frontier
    ∃ t, exec (.readReturn txn (.data line)) s = .next t ∧
      let after (u : Unpack) : Prop := t = { s with
        path := { s.path with reads := s.path.reads.filter fun y => y.txn != r.txn }
        unpack := { u with frontier := frontier }
        out := { up := [.data r.txn opened] } }
      let raised (cause : UnitCause) (u : Unpack) : Prop := t = afterRaise s.sound.ramp .unitCheck { s with
        path := { s.path with reads := s.path.reads.filter fun y => y.txn != r.txn }
        unpack := { u with
          frontier := frontier
          unitCheck := some (match x.unitCheck with
            | none => { cause := cause, unit := place.unit, reel := place.reel, further := 0 }
            | some y => { y with further := Nat.min (y.further + 1) 65535 }) }
        out := { up := [.data r.txn opened] } }
      let limit := (r.binding.stride - 1) * 64
      let truth := headerUnit opened = place.within ∧ headerLength opened ≤ limit
      (place.line = 0 →
        (headerUnit opened ≠ place.within → raised .number freed) ∧
        (headerUnit opened = place.within → limit < headerLength opened → raised .length freed) ∧
        (truth → headerLength opened = 0 → headerCrc opened = 0#32 →
          after { freed with checkedUnits := bump x.checkedUnits }) ∧
        (truth → headerLength opened = 0 → headerCrc opened ≠ 0#32 → raised .crc freed) ∧
        (truth → headerLength opened ≠ 0 →
          (tracks x.context0 → after { x with context0 := fresh, context1 := older x.context1 }) ∧
          (tracks x.context1 → after { x with context0 := older x.context0, context1 := fresh }) ∧
          (¬ tracks x.context0 → ¬ tracks x.context1 →
            (x.context0 = none → after { x with context0 := fresh, context1 := older x.context1 }) ∧
            (x.context0 ≠ none → x.context1 = none → after { x with context0 := older x.context0, context1 := fresh }) ∧
            (∀ c d, x.context0 = some c → x.context1 = some d → after
              { x with
                uncheckedUnits := bump x.uncheckedUnits
                context0 := if c.recent then older x.context0 else fresh
                context1 := if c.recent then fresh else older x.context1 })))) ∧
      (place.line ≠ 0 →
        (¬ tracks x.context0 → ¬ tracks x.context1 → after x) ∧
        ∀ c, c.unit = place.unit →
          let onward : Option UnitContext := some
            { c with expectedLine := c.expectedLine + 1, register := foldLine c opened, recent := true }
          let last := place.line = c.expectedLine ∧ c.expectedLine = payloadLines c.length
          (x.context0 = some c →
            (place.line ≠ c.expectedLine → after { x with context0 := none, uncheckedUnits := bump x.uncheckedUnits }) ∧
            (place.line = c.expectedLine → c.expectedLine ≠ payloadLines c.length →
              after { x with context0 := onward, context1 := older x.context1 }) ∧
            (last → foldLine c opened ^^^ BitVec.allOnes 32 = c.crc →
              after { x with context0 := none, checkedUnits := bump x.checkedUnits }) ∧
            (last → foldLine c opened ^^^ BitVec.allOnes 32 ≠ c.crc → raised .crc { x with context0 := none })) ∧
          (x.context1 = some c →
            (place.line ≠ c.expectedLine → after { x with context1 := none, uncheckedUnits := bump x.uncheckedUnits }) ∧
            (place.line = c.expectedLine → c.expectedLine ≠ payloadLines c.length →
              after { x with context0 := older x.context0, context1 := onward }) ∧
            (last → foldLine c opened ^^^ BitVec.allOnes 32 = c.crc →
              after { x with context1 := none, checkedUnits := bump x.checkedUnits }) ∧
            (last → foldLine c opened ^^^ BitVec.allOnes 32 ≠ c.crc → raised .crc { x with context1 := none })))) ∧
  (∀ opened : Line, headerUnit opened = opened.toNat % 2 ^ 32 ∧ headerLength opened = opened.toNat / 2 ^ 32 % 2 ^ 32 ∧
    (headerCrc opened).toNat = opened.toNat / 2 ^ 64 % 2 ^ 32) ∧
  (∀ n : Nat, n ≤ 64 * payloadLines n ∧ 64 * payloadLines n < n + 64 ∧
    ∀ j, 1 ≤ j → (j < payloadLines n → payloadBytes n j = 64) ∧
      (j = payloadLines n → payloadBytes n j + 64 * (j - 1) = n)) ∧
  (∀ (c : UnitContext) (opened : Line),
    let shift (r : BitVec 32) : BitVec 32 := if r.getLsbD 0 = true then (r >>> 1) ^^^ 0xEDB88320#32 else r >>> 1
    let byte (k : Nat) : BitVec 8 := opened.extractLsb' (8 * k) 8
    foldLine c opened = (List.range (payloadBytes c.length c.expectedLine)).foldl
      (fun r k => shift^[8] (r ^^^ (byte k).setWidth 32)) c.register)

/-- READ_RETURN of a sound read's data: withheld, silence and one withheld count; opened, the line the Sound Stage forms at
the line's own sample, and the frontier raised (R87, R88, R96); PictureReadReturns gives the gate, and R71 is written out here.  The
gain at a sample is the first row of R91's table that holds: the start gain before the ramp, the target at its length and beyond,
and between them the start gain and the truncated part of the way.  It lies between 0 and 32768 while the ramp's start
gain does, and no returned sample is greater in magnitude than the one it comes from.  A sound word holds its signed sample in its
upper 24 bits above a byte of zeros (Table 11-7); the channel count is the record's.  PictureReadReturns writes out the keystream
and the raising of a frontier. -/
def Obligations.SoundReadReturns : Prop :=
  (∀ (txn : Nat) (line : Line) (s : State) (r : ReadInFlight), s.power.on = true → awaitedRead s txn = some r →
    r.route = .sound →
    let rest := { s.path with reads := s.path.reads.filter fun x => x.txn != r.txn }
    (∀ reason, gate .sound s r.binding = .withheld reason →
      exec (.readReturn txn (.data line)) s = .next { s with
        path := rest
        unpack := { s.unpack with withheldSound := bumpWithheld reason s.unpack.withheldSound }
        out := { up := [.data r.txn 0#512] } }) ∧
    (∀ place nonce material, gate .sound s r.binding = .opened place nonce material →
      exec (.readReturn txn (.data line)) s = .next { s with
        path := rest
        sound := { s.sound with frontier := raiseFrontier s.sound.frontier place.sample }
        out := { up := [.data r.txn
          (soundLine (channelCount s) s.sound.activeMask (gainAt s.sound.ramp place.sample)
            (line ^^^ keystream material nonce r.binding.offset))] } })) ∧
  (∀ (channels : Nat) (mask : BitVec 16) (gain : Nat) (opened : Line) (c : Nat), c < 16 →
    lineWord (soundLine channels mask gain opened) c =
      if channels ≤ c ∨ mask.getLsbD c = true then 0#32
      else soundWord (Int.fdiv (soundSample (lineWord opened c) * gain) 32768)) ∧
  (∀ (s : State) (b : Binding),
    ((∀ r, s.ctl.record = some r → r.reels[b.reel]? = none) → mapSound s b = none) ∧
    ∀ r e, s.ctl.record = some r → r.reels[b.reel]? = some e →
      let start := ((r.reels.take b.reel).map (·.duration)).sum
      let spu := samplesPerUnit r
      mapSound s b = if b.entry = some e.soundRegion ∧ b.offset < e.duration * spu then
        some { reel := b.reel, within := b.offset / spu, unit := start + b.offset / spu, line := 0
               sample := start * spu + b.offset }
      else none) ∧
  (∀ (ramp : GainRamp) (sample : Nat),
    let target : Nat := match ramp.target with | .silence => 0 | .unity => 32768
    (sample < ramp.startSample → gainAt ramp sample = ramp.startGain) ∧
    (ramp.startSample ≤ sample → ramp.length = 0 ∨ ramp.startSample + ramp.length ≤ sample → gainAt ramp sample = target) ∧
    (ramp.startSample ≤ sample → sample < ramp.startSample + ramp.length → ramp.startGain ≤ 32768 →
      (gainAt ramp sample : Int) = ramp.startGain +
        Int.tdiv (((target : Int) - ramp.startGain) * ((sample : Int) - ramp.startSample)) ramp.length) ∧
    (ramp.startGain ≤ 32768 → gainAt ramp sample ≤ 32768)) ∧
  (∀ (v : Int) (gain : Nat), gain ≤ 32768 → (Int.fdiv (v * gain) 32768).natAbs ≤ v.natAbs) ∧
  (∀ w : BitVec 32, soundSample w =
    if w.getLsbD 31 = true then ((w.toNat / 256 : Nat) : Int) - 16777216 else ((w.toNat / 256 : Nat) : Int)) ∧
  (∀ v : Int, -8388608 ≤ v → v ≤ 8388607 → soundSample (soundWord v) = v ∧ (soundWord v).extractLsb' 0 8 = 0#8) ∧
  (∀ (s : State) (r : ShowRecord), s.ctl.record = some r → channelCount s = r.channels)

/-- READ_RETURN at a display read: it is held until its own data and every sent side read have returned; then its line goes
upstream once, and a composited line moves the two counts (R12, R13, R120).  The line is the frame line, a black line, or
the cues composited over one of them (R121, R126); a side read's cue is drawn when its entry matches the active cue (R122),
at the fade level of R123, and blended and clamped lane by lane (R124, R125), so that every component lies in its range.  A picture
is shown of a full show, RUNNING, with the output OPEN (R55); a preview display is a preview in PRIMED, RUNNING or HELD (R121).  A
display read is complete when its own data is there and no side read that was sent is still awaited (R13).  Word i of a line is its bits
32 i to 32 i + 31 (R165), and black and white are 0 and 1023, or 64 and 940, by the range. -/
def Obligations.DisplayReadReturns : Prop :=
  (∀ (txn : Nat) (line : Line) (s : State) (r : ReadInFlight), s.power.on = true → awaitedRead s txn = some r →
    r.route = .display →
    let x := { r with frame := some line }
    (readComplete x = false →
      exec (.readReturn txn (.data line)) s = .next { s with
        path := { s.path with reads := s.path.reads.map fun y => if y.txn = r.txn then x else y }, out := {} }) ∧
    (readComplete x = true → ∃ o, exec (.readReturn txn (.data line)) s = .next { s with
        path := { s.path with reads := s.path.reads.filter fun y => y.txn != r.txn }
        overlay := o
        out := { up := [.data r.txn (displayLine s r.binding r.sides line)] } } ∧
      (compositeBase s r.binding line = none → o = s.overlay) ∧
      (compositeBase s r.binding line ≠ none → o = { s.overlay with
        sideFailures := Nat.min (s.overlay.sideFailures + (r.sides.filter sideFailed).length) 4294967295
        unmatched := Nat.min (s.overlay.unmatched + (r.sides.filter (sideUnmatched s)).length) 4294967295 }))) ∧
  (∀ (s : State) (b : Binding) (sides : List SideRead) (frame : Line),
    (pictureShown s = true ↔ s.ctl.state = .running ∧ s.ctl.mark = .full ∧ outputCondition s = .openOutput) ∧
    (previewDisplay s = true ↔
      s.ctl.mark = .preview ∧ (s.ctl.state = .primed ∨ s.ctl.state = .running ∨ s.ctl.state = .held)) ∧
    (pictureShown s = true → compositeBase s b frame = some frame) ∧
    (pictureShown s = false → previewDisplay s = true →
      compositeBase s b frame = some (if b.isProtected then blackLine b.range else frame)) ∧
    (pictureShown s = false → previewDisplay s = false → compositeBase s b frame = none ∧
      displayLine s b sides frame = if b.isProtected then blackLine b.range else frame) ∧
    (∀ base, compositeBase s b frame = some base →
      displayLine s b sides frame = compositeLine b.range (sides.filterMap (drawnFor s)) base)) ∧
  (∀ (s : State) (x : SideRead),
    let same (c : Cue) : Prop := x.entry =
      { lane := x.entry.lane, number := c.number, inUnit := c.inUnit, x0 := c.x0, y0 := c.y0, w := c.w, h := c.h,
        plane := c.plane, px := c.px, py := c.py }
    (x.status = .failed → drawnFor s x = none ∧ sideFailed x = true ∧ sideUnmatched s x = false) ∧
    (∀ plane, x.status = .data plane → sideFailed x = false ∧
      (∀ active, (cueLane s x.entry.lane).active = some active → same active.cue → sideUnmatched s x = false ∧
        drawnFor s x = some
          { level := fadeLevel active.cue.inUnit active.cue.outUnit active.cue.fadeUp active.cue.fadeDown s.ctl.position
            plane := plane }) ∧
      ((∀ active, (cueLane s x.entry.lane).active = some active → ¬ same active.cue) →
        drawnFor s x = none ∧ sideUnmatched s x = true))) ∧
  (∀ i o u d p : Nat, i ≤ p → p < o → u ≤ 255 → d ≤ 255 →
    let up := if u = 0 then 256 else min 256 (256 * (p - i + 1) / u)
    let down := if d = 0 then 256 else min 256 (256 * (o - p) / d)
    fadeLevel i o u d p = min up down ∧ 1 ≤ fadeLevel i o u d p ∧ fadeLevel i o u d p ≤ 256) ∧
  (∀ (range : PixelRange) (drawn : List DrawnCue) (base : Line) (i lo : Nat), i < 16 → lo = 0 ∨ lo = 10 ∨ lo = 20 →
    let clamp (v : Nat) : Nat := max (blackLevel range) (min v (whiteLevel range))
    let blend (f : Nat) (d : DrawnCue) : Nat :=
      let pixel := lineWord d.plane i
      let c8 := wordField pixel (lo / 10 * 8) 8
      let c10 := 4 * c8 + c8 / 64
      let colour := match range with | .full => c10 | .limited => 64 + c10 * 876 / 1023
      let alpha := wordField pixel 24 8 * d.level / 256
      clamp ((colour * alpha + f * (255 - alpha) + 127) / 255)
    let component (l : Line) : Nat := wordField (lineWord l i) lo 10
    component (compositeLine range drawn base) =
        (if drawn = [] then clamp (component base) else drawn.foldl blend (component base)) ∧
      (lineWord (compositeLine range drawn base) i).extractLsb' 30 2 = (lineWord base i).extractLsb' 30 2 ∧
      blackLevel range ≤ component (compositeLine range drawn base) ∧
      component (compositeLine range drawn base) ≤ whiteLevel range ∧
      component (blackLine range) = blackLevel range ∧ (lineWord (blackLine range) i).extractLsb' 30 2 = 0#2) ∧
  (∀ r : ReadInFlight, readComplete r = true ↔ r.frame ≠ none ∧ ∀ x ∈ r.sides, x.status ≠ .awaited) ∧
  (∀ (l : Line) (i j : Nat), j < 32 → (lineWord l i).getLsbD j = l.getLsbD (32 * i + j)) ∧
  (∀ (w : BitVec 32) (lo len : Nat), wordField w lo len = w.toNat / 2 ^ lo % 2 ^ len) ∧
  (∀ range : PixelRange, blackLevel range = (match range with | .full => 0 | .limited => 64) ∧
    whiteLevel range = match range with | .full => 1023 | .limited => 940)

/-- SIDE_READ_RETURN for a side read that is awaited: its data or error is joined, in the place of the side read of its lane; the display
read is returned when it was the last to come (R13).  An answer that no side read awaits, its display read having been answered with an
error, is discarded (R12; log 6).  DisplayReadReturns writes out when a display read is complete. -/
def Obligations.SideReadReturns : Prop :=
  (∀ (txn : Nat) (lane : LaneId) (ans : ReadAnswer) (s : State) (r : ReadInFlight), s.power.on = true →
    awaitedSide s txn lane = some r →
    let x := { r with sides := r.sides.map (answerSide lane ans) }
    (readComplete x = false →
      exec (.sideReadReturn txn lane ans) s = .next { s with
        path := { s.path with reads := s.path.reads.map fun y => if y.txn = r.txn then x else y }, out := {} }) ∧
    (∀ frame, r.frame = some frame → readComplete x = true → ∃ o, exec (.sideReadReturn txn lane ans) s = .next { s with
        path := { s.path with reads := s.path.reads.filter fun y => y.txn != r.txn }
        overlay := o
        out := { up := [.data r.txn (displayLine s r.binding x.sides frame)] } } ∧
      (compositeBase s r.binding frame = none → o = s.overlay) ∧
      (compositeBase s r.binding frame ≠ none → o = { s.overlay with
        sideFailures := Nat.min (s.overlay.sideFailures + (x.sides.filter sideFailed).length) 4294967295
        unmatched := Nat.min (s.overlay.unmatched + (x.sides.filter (sideUnmatched s)).length) 4294967295 }))) ∧
  (∀ (s : State) (txn : Nat) (lane : LaneId),
    let waits (r : ReadInFlight) : Prop := r.txn = txn ∧ ∃ x ∈ r.sides, x.entry.lane = lane ∧ x.status = .awaited
    (∀ r, awaitedSide s txn lane = some r → r ∈ s.path.reads ∧ waits r) ∧
    (awaitedSide s txn lane = none ↔ ∀ r ∈ s.path.reads, ¬ waits r) ∧
    (awaitedSide s txn lane = none → s.power.on = true → ∀ ans,
      exec (.sideReadReturn txn lane ans) s = .next { s with out := {} })) ∧
  (∀ (lane : LaneId) (ans : ReadAnswer) (x : SideRead), answerSide lane ans x =
    if x.entry.lane = lane ∧ x.status = .awaited then
      { x with status := match ans with | .data line => .data line | .error => .failed }
    else x)

/-- WRITE_COMPLETION: the downstream completion goes upstream; a line of a CUE region that completes OK is taken, and dropped as
partial, malformed, rejected or ignored, or arrives at its lane, where an overrun is raised (R2, R15, R100, R103, R105,
R112).  A line is a cue by the checks of R100, its CRC-8 worked as R101 says and its fields clamped as R102 says; check 5
reads the Region Table as it stands; in EMPTY, where no cue reaches a lane, a line taken after a booth reset of the same microsecond
that took its plane away may pass it or fail it, as R115 and R100 disagree (a free value, log 29).  The first filter that matches decides (R103).  The fields of
a line lie least significant byte first (R165); CueArrivesByCase gives the arrival at a lane. -/
def Obligations.WriteCompletes : Prop :=
  (∀ (txn : Nat) (ok : Bool) (s : State) (w : WriteInFlight), s.power.on = true → awaitedWrite s txn = some w →
    let rest := { s.path with writes := s.path.writes.filter fun x => x.txn != w.txn }
    let inc (n : Nat) : Nat := Nat.min (n + 1) 4294967295
    let n := { s.cues.counts with taken := inc s.cues.counts.taken }
    let after (c : CueIntake) : State := { s with path := rest, cues := c, out := { up := [.writeOk w.txn] } }
    (ok = false → exec (.writeCompletion txn ok) s =
      .next { s with path := rest, out := { up := [.writeError w.txn] } }) ∧
    (ok = true → w.binding.kind ≠ .cue → exec (.writeCompletion txn ok) s =
      .next { s with path := rest, out := { up := [.writeOk w.txn] } }) ∧
    (ok = true → w.binding.kind = .cue → w.enables ≠ BitVec.allOnes 64 → exec (.writeCompletion txn ok) s =
      .next (after { s.cues with counts := { n with partialLines := inc n.partialLines } })) ∧
    (ok = true → w.binding.kind = .cue → w.enables = BitVec.allOnes 64 →
      (wellFormedCue s w.data = none → exec (.writeCompletion txn ok) s =
        .next (after { s.cues with counts := { n with malformed := inc n.malformed } })) ∧
      ∀ c, wellFormedCue s w.data = some c →
        (filterActionFor s.cues c.track = .reject → exec (.writeCompletion txn ok) s =
          .next (after { s.cues with counts := { n with rejected := inc n.rejected } })) ∧
        (filterActionFor s.cues c.track ≠ .reject → s.ctl.state = .empty ∨ s.ctl.state = .ended →
          exec (.writeCompletion txn ok) s =
            .next (after { s.cues with counts := { n with ignored := inc n.ignored } })) ∧
        (s.ctl.state ≠ .empty → s.ctl.state ≠ .ended → ∀ lane : LaneId,
          filterActionFor s.cues c.track = (match lane with | .a => .laneA | .b => .laneB) →
          let playing : Bool := s.ctl.state = .running || s.ctl.state = .held
          let arrival := laneArrive playing s.ctl.position c (cueLane s lane)
          let placed := after (match lane with
            | .a => { s.cues with counts := n, laneA := arrival.1 }
            | .b => { s.cues with counts := n, laneB := arrival.1 })
          exec (.writeCompletion txn ok) s =
            .next (if arrival.2 then afterRaise s.sound.ramp .cueOverrun placed else placed)))) ∧
  (∀ (s : State) (data : Line) (c : Cue),
    let shift (r : Byte) : Byte := if r.getLsbD 7 = true then (r <<< 1) ^^^ 7#8 else r <<< 1
    let register := (List.range 63).foldl (fun r k => shift^[8] (r ^^^ lineByte data k)) 0#8
    let field (at_ len : Nat) : Nat := lineField data at_ len
    let down (v : Nat) : Nat := 16 * (v / 16)
    let up (v : Nat) : Nat := 16 * ((v + 15) / 16)
    let ready (plane : Fin 24) : Prop := s.path.regions[plane].valid = true ∧ s.path.regions[plane].kind = .plane
    let spells (plane : Fin 24) : Prop :=
      field 0 1 = 1 ∧ register = lineByte data 63 ∧ field 8 3 < field 11 3 ∧ plane.val = field 24 1 ∧
          c = { number := field 4 4, track := BitVec.ofNat 16 (field 2 2), forced := decide (field 1 1 % 2 = 1)
                inUnit := field 8 3, outUnit := field 11 3, fadeUp := field 14 1, fadeDown := field 15 1
                x0 := down (field 16 2), y0 := field 18 2, w := up (field 20 2), h := field 22 2, plane := plane
                px := down (field 26 2), py := field 28 2 }
    (∀ plane, spells plane → ready plane → wellFormedCue s data = some c) ∧
    (wellFormedCue s data = some c → ∃ plane, spells plane ∧
      (ready plane ∨ plane ∈ s.path.planesLost ∧ s.ctl.state = .empty))) ∧
  (∀ (x : CueIntake) (track : BitVec 16),
    let hits (i : Fin 8) : Prop := x.filters[i].enabled = true ∧
      ∀ b, b < 16 → x.filters[i].mask.getLsbD b = true → track.getLsbD b = x.filters[i].matchValue.getLsbD b
    (∀ i, hits i → (∀ j, j < i → ¬ hits j) → filterActionFor x track = x.filters[i].action) ∧
      ((∀ i, ¬ hits i) → filterActionFor x track = x.defaultAction)) ∧
  (∀ (l : Line) (k n : Nat), lineByte l k = l.extractLsb' (8 * k) 8 ∧
    lineField l k n = l.toNat / 2 ^ (8 * k) % 2 ^ (8 * n)) ∧
  (∀ (s : State) (txn : Nat),
    (∀ w, awaitedWrite s txn = some w → w ∈ s.path.writes ∧ w.txn = txn) ∧
    (awaitedWrite s txn = none ↔ ∀ w ∈ s.path.writes, w.txn ≠ txn))

/-- The arrival of a cue at a lane, case by case (R107, R108, R112): an update of the active cue is pending until the next
activation; a queued number is replaced; a cue over by p is late; a full queue drops it and raises CUE_OVERRUN; else it
is inserted.  Each case moves its own count, and the inserted cue stands after every queued cue of equal in unit.
Activation for p, step by step (R109, R111): the update is applied, the active cue retired, the due cues leave the queue,
those over by p skipped, the last of the others becomes active and the rest are cut, and CUE_LOW is set at the low mark.
A cue whose in unit comes to the bound is not due and stays queued: the bound is T, the total, by R102, or T + 1 at the final advance,
where p is T, by R109 (a free value, log 28). -/
def Obligations.CueArrivesByCase : Prop :=
  ∀ (playing : Bool) (p : Nat) (c : Cue) (x : Lane),
    let inc (n : Nat) : Nat := Nat.min (n + 1) 65535
    (∀ a, x.active = some a → a.cue.number = c.number → laneArrive playing p c x =
      ({ x with
          active := some { a with update := some { outUnit := c.outUnit, fadeDown := c.fadeDown } }
          counts := { x.counts with updated := inc x.counts.updated } }, false)) ∧
    ((∀ a, x.active = some a → a.cue.number ≠ c.number) →
      ((∃ d ∈ x.queue, d.number = c.number) → laneArrive playing p c x =
        ({ x with
            queue := insertCue c (x.queue.filter fun d => d.number != c.number)
            counts := { x.counts with replaced := inc x.counts.replaced } }, false)) ∧
      ((∀ d ∈ x.queue, d.number ≠ c.number) →
        (playing = true → c.outUnit ≤ p → laneArrive playing p c x =
          ({ x with counts := { x.counts with late := inc x.counts.late } }, false)) ∧
        (playing = false ∨ p < c.outUnit →
          (16 ≤ x.queue.length → laneArrive playing p c x =
            ({ x with counts := { x.counts with overrun := inc x.counts.overrun } }, true)) ∧
          (x.queue.length < 16 → laneArrive playing p c x =
            ({ x with queue := insertCue c x.queue, counts := { x.counts with inserted := inc x.counts.inserted } },
              false))))) ∧
    (∀ queue : List Cue, queue.Pairwise (fun a b => a.inUnit ≤ b.inUnit) →
      ∃ before after, queue = before ++ after ∧ insertCue c queue = before ++ c :: after ∧
        (∀ d ∈ before, d.inUnit ≤ c.inUnit) ∧ ∀ d ∈ after, c.inUnit < d.inUnit) ∧
    (∀ (bound : Nat) (due later : List Cue), x.queue = due ++ later → (∀ d ∈ due, d.inUnit ≤ p ∧ d.inUnit < bound) →
      (∀ d, later.head? = some d → p < d.inUnit ∨ bound ≤ d.inUnit) →
      let updated : Option ActiveCue := x.active.map fun a =>
        match a.update with
        | some u => { cue := { a.cue with outUnit := u.outUnit, fadeDown := u.fadeDown }, update := none }
        | none => a
      let kept : Option ActiveCue := updated.filter fun a => decide (p < a.cue.outUnit)
      let live := due.filter fun d => decide (p < d.outUnit)
      let y := laneActivate p bound x
      y.queue = later ∧ y.lowMark = x.lowMark ∧
        y.active = (match live.getLast? with | some d => some { cue := d, update := none } | none => kept) ∧
        y.counts = { x.counts with
          retired := if updated.isSome ∧ kept = none then inc x.counts.retired else x.counts.retired
          skipped := Nat.min (x.counts.skipped + (due.length - live.length)) 65535
          cut := if live = [] then x.counts.cut else
            Nat.min (x.counts.cut + (live.length - 1 + kept.toList.length)) 65535 } ∧
        (laneLow p bound x = true ↔ due ≠ [] ∧ later.length ≤ x.lowMark))

/-! ### Pacing -/

/-- FSYNC_IN_EDGE where it makes no advance: counted only while the clock is IDLE or the source is INTERNAL (R19, R22, R30);
counted and a glitch in TRACKING before E - W (R26); not counted while BRST_N is low, nor twice in one microsecond
(R19, R35). -/
def Obligations.EdgeWithoutAdvance : Prop :=
  ∀ s : State, s.power.on = true →
    let counted : Clock := { s.clock with edges := Nat.min (s.clock.edges + 1) 4294967295, edgeSeen := true }
    (s.power.brstLow = true ∨ s.clock.edgeSeen = true → exec .fsyncInEdge s = .next { s with out := {} }) ∧
    (s.power.brstLow = false → s.clock.edgeSeen = false →
      (s.clock.substate = .idle → exec .fsyncInEdge s = .next { s with clock := counted, out := {} }) ∧
      (s.clock.substate = .tracking → isInternal s = true →
        exec .fsyncInEdge s = .next { s with clock := counted, out := {} }) ∧
      (s.clock.substate = .tracking → isInternal s = false →
        timeBefore s.clock.timebase (s.clock.expected - BitVec.ofNat 48 s.clock.window) = true →
        exec .fsyncInEdge s = .next { s with
          clock := { counted with glitches := Nat.min (s.clock.glitches + 1) 4294967295 }, out := {} }))

/-- The anchor edge (R24): the first edge in AWAITING_ANCHOR sets the anchor and k, the last accepted edge time and the
consecutive-miss count, counts itself accepted, cancels the anchor deadline, enters TRACKING with E one unit on, withdraws an
active SYNC_LOSS condition, and makes no advance. -/
def Obligations.AnchorEdgeTakesTheAnchor : Prop :=
  ∀ (s : State) (r : ShowRecord), s.power.on = true → s.power.brstLow = false → s.clock.edgeSeen = false →
    s.clock.substate = .awaitingAnchor → s.ctl.record = some r →
    exec .fsyncInEdge s = .next { s with
      clock := { s.clock with
        edges := Nat.min (s.clock.edges + 1) 4294967295
        edgeSeen := true
        substate := .tracking
        anchor := s.clock.timebase
        unitCount := 0
        expected := s.clock.timebase + BitVec.ofNat 48 (1000000 * rateD r.editRate / rateN r.editRate)
        lastAccepted := some s.clock.timebase
        accepted := Nat.min (s.clock.accepted + 1) 4294967295
        consecutive := 0
        anchorDeadline := none
        syncLoss := false }
      sup := if s.clock.syncLoss then
          { s.sup with faults := vput s.sup.faults 0 { (s.sup.faults[(0 : Fin 9)]) with condition := false } }
        else s.sup
      out := {} }

/-- FSYNC_IN_EDGE inside the window, both ends included (R26, R29): an advance, with the anchor taken afresh, the measured
period and span set, the counts moved and an active SYNC_LOSS condition withdrawn before it (R28).  `Advanced` (Safety.lean)
says what an advance does in every order of its reactions: p one more and the final one's ENDED and event (R32, R50), the lanes
(R109), the masks (R90), the late counts and starvation with its raises (R85, R97), KEY_LAPSED (R51), the blanked count (R134), the
commit and no commit otherwise (R135), the countdown with what was raised under TIMED before and after it (R149, R150), the latch
and the hold (R151), the ramps (R94), the events FAULT, SHOW_STATE and the lanes' two, set exactly by their causes (R147, R48, R111), the
Show Clock going on with the show and IDLE with its hold and its end (R22), and that nothing else changes; CommitCountsTheShowing gives
the commit.  The small functions that `Advanced` speaks through are written out here. -/
def Obligations.AcceptedEdgeAdvances : Prop :=
  (∀ (s : State) (r : ShowRecord) (last : Time), s.power.on = true → s.power.brstLow = false → s.clock.edgeSeen = false →
    s.clock.substate = .tracking → isInternal s = false → s.ctl.record = some r → s.clock.lastAccepted = some last →
    timeBefore s.clock.timebase (s.clock.expected - BitVec.ofNat 48 s.clock.window) = false →
    timeBefore (s.clock.expected + BitVec.ofNat 48 s.clock.window) s.clock.timebase = false →
    ∃ t, exec .fsyncInEdge s = .next t ∧ Advanced { s with out := {} } t ∧
      t.clock.anchor = s.clock.timebase ∧ t.clock.unitCount = 0 ∧
      t.clock.expected = s.clock.timebase + BitVec.ofNat 48 (1000000 * rateD r.editRate / rateN r.editRate) ∧
      t.clock.lastAccepted = some s.clock.timebase ∧ t.clock.consecutive = 0 ∧
      t.clock.accepted = Nat.min (s.clock.accepted + 1) 4294967295 ∧
      t.clock.period = Nat.min (s.clock.timebase - last).toNat 4294967295 ∧
      t.clock.span = Nat.min (s.clock.unitCount + 1) 255 ∧ t.clock.syncLoss = false ∧
      faultOf t .syncLoss =
        (if s.clock.syncLoss then { faultOf s .syncLoss with condition := false } else faultOf s .syncLoss) ∧
      t.clock.edges = Nat.min (s.clock.edges + 1) 4294967295 ∧ t.clock.glitches = s.clock.glitches ∧
      t.clock.missed = s.clock.missed ∧ t.clock.timebase = s.clock.timebase ∧ t.clock.edgeSeen = true ∧
      (s.ctl.state = .running → t.clock.substate = if t.ctl.state = .running then .tracking else .idle)) ∧
  (∀ (f : Option Nat) (v : Nat), frontierBehind f v = true ↔ ∀ u, f = some u → u < v) ∧
  (∀ late : Nat, nextLate true late = Nat.min (late + 1) 255 ∧ nextLate false late = 0) ∧
  (∀ x : KeySlot, isLapsed x = true ↔ ∃ f m grace, x = .lapsed f m grace) ∧
  (∀ (s : State) (k : FaultKind), (isFull s = true ↔ s.ctl.mark = .full) ∧
    detectorOf s k = match k with
      | .syncLoss => s.clock.syncLoss
      | .pictureStarved => s.unpack.starved
      | .soundStarved => s.sound.starved
      | .keyLapsed => s.ctl.keyLapsed
      | .watchdog => s.sup.watchdog.condition
      | .unitCheck | .cueOverrun | .access | .storeFail => false)

/-- WINDOW_EXPIRY when it is due (R27, R28): an advance, k one more from the same anchor, the missed and consecutive-miss
counts moved, and SYNC_LOSS active, and raised if it was not, when the count comes to L.  INTERNAL_EXPIRY when it is due (R30): an
advance and k one more from the same anchor, no miss, no SYNC_LOSS.  Neither moves the edge and glitch counts, the period or the span, and
the Show Clock tracks on while the show runs on, else is IDLE (R22).  An expiry that is not due has no effect (log 5).
AcceptedEdgeAdvances says what `Advanced` holds, and IdleStepCountsOneMicrosecond when an expiry is due. -/
def Obligations.ExpiriesAdvance : Prop :=
  ∀ (s : State) (r : ShowRecord), s.power.on = true → s.ctl.record = some r → s.clock.unitCount < 16777215 →
    let nextE := s.clock.anchor + BitVec.ofNat 48 ((s.clock.unitCount + 2) * 1000000 * rateD r.editRate / rateN r.editRate)
    let rest (t : State) : Prop := t.clock.edges = s.clock.edges ∧ t.clock.glitches = s.clock.glitches ∧
      t.clock.period = s.clock.period ∧ t.clock.span = s.clock.span ∧ t.clock.edgeSeen = s.clock.edgeSeen ∧
      (s.ctl.state = .running → t.clock.substate = if t.ctl.state = .running then .tracking else .idle)
    (windowDue s = true → ∃ t, exec .windowExpiry s = .next t ∧ Advanced { s with out := {} } t ∧
      t.clock.anchor = s.clock.anchor ∧ t.clock.unitCount = s.clock.unitCount + 1 ∧ t.clock.expected = nextE ∧
      t.clock.missed = Nat.min (s.clock.missed + 1) 4294967295 ∧
      t.clock.consecutive = Nat.min (s.clock.consecutive + 1) 255 ∧
      t.clock.syncLoss = (s.clock.syncLoss || decide (Nat.min (s.clock.consecutive + 1) 255 = s.clock.lossLimit)) ∧
      faultOf t .syncLoss = (if s.clock.syncLoss = false ∧ t.clock.syncLoss = true then
        raisedEntry (policyOfKind s .syncLoss).policy .syncLoss (faultOf s .syncLoss) else faultOf s .syncLoss) ∧
      t.clock.lastAccepted = s.clock.lastAccepted ∧ t.clock.accepted = s.clock.accepted ∧
      t.clock.timebase = s.clock.timebase ∧ rest t) ∧
    (internalDue s = true → ∃ t, exec .internalExpiry s = .next t ∧ Advanced { s with out := {} } t ∧
      t.clock.anchor = s.clock.anchor ∧ t.clock.unitCount = s.clock.unitCount + 1 ∧ t.clock.expected = nextE ∧
      t.clock.missed = s.clock.missed ∧ t.clock.consecutive = s.clock.consecutive ∧
      t.clock.syncLoss = s.clock.syncLoss ∧ faultOf t .syncLoss = faultOf s .syncLoss ∧
      t.clock.lastAccepted = s.clock.lastAccepted ∧ t.clock.accepted = s.clock.accepted ∧
      t.clock.timebase = s.clock.timebase ∧ rest t) ∧
    (windowDue s = false → exec .windowExpiry s = .next { s with out := {} }) ∧
    (internalDue s = false → exec .internalExpiry s = .next { s with out := {} })

/-- A late edge (R26): the miss for the current E is taken first, then the edge is a glitch against the next window; when the miss
leaves the clock IDLE, at the final advance or by a hold, the edge is counted only (for a hold DEDUCED, log 19).
IdleStepCountsOneMicrosecond writes out when the window expiry is due. -/
def Obligations.LateEdgeIsAMissFirst : Prop :=
  ∀ s : State, s.power.on = true → s.power.brstLow = false → s.clock.edgeSeen = false → s.clock.substate = .tracking →
    isInternal s = false →
    timeBefore s.clock.timebase (s.clock.expected - BitVec.ofNat 48 s.clock.window) = false → windowDue s = true →
    ∃ m t, exec .windowExpiry { s with clock :=
          { s.clock with edges := Nat.min (s.clock.edges + 1) 4294967295, edgeSeen := true } } = .next m ∧
      exec .fsyncInEdge s = .next t ∧
      t = (if m.clock.substate = .tracking then
          { m with clock := { m.clock with glitches := Nat.min (s.clock.glitches + 1) 4294967295 } } else m) ∧
      m.clock.glitches = s.clock.glitches ∧ m.clock.edges = Nat.min (s.clock.edges + 1) 4294967295

/-- ANCHOR_TIMEOUT when the deadline is reached (R25): the deadline goes; with the condition not active SYNC_LOSS is raised, as
R147 and R151 give a raise, else no second raise is made; no advance.  One that is not due has no effect (log 5).
IdleStepCountsOneMicrosecond writes out when it is due.  The show is primed, for the ramp of `afterRaise`, in PRIMED, RUNNING, HELD and
ENDED (R94). -/
def Obligations.AnchorTimeoutRaisesOnce : Prop :=
  (∀ s : State, s.power.on = true →
    (anchorDue s = true → s.clock.syncLoss = true → exec .anchorTimeout s = .next { s with
      clock := { s.clock with anchorDeadline := none }, out := {} }) ∧
    (anchorDue s = true → s.clock.syncLoss = false → exec .anchorTimeout s = .next (afterRaise s.sound.ramp .syncLoss { s with
      clock := { s.clock with anchorDeadline := none, syncLoss := true }, out := {} })) ∧
    (anchorDue s = false → exec .anchorTimeout s = .next { s with out := {} })) ∧
  (∀ s : State, isPrimed s = true ↔
    s.ctl.state = .primed ∨ s.ctl.state = .running ∨ s.ctl.state = .held ∨ s.ctl.state = .ended)

/-- The commit at the advance to C, in every order of the reactions (R135 to R137, R139, R140): the reserved licence loses one showing
and gains one used, the sequence counter counts, the log gains one record with the fields R136 fixes, the committed flag and
the COMMITTED event are set, LOG_HIGH at 48 records or more, and the commit write is started in a READY store, waits in a BUSY one, and
in a FAILED one leaves the slot SUSPENDED: `ShowingCommitted` (Safety.lean).  So it is at the three commands that make the advance: an
edge of FSYNC_IN not before E - W, a miss of its own or not, WINDOW_EXPIRY and INTERNAL_EXPIRY when they are due. -/
def Obligations.CommitCountsTheShowing : Prop :=
  ∀ (s : State) (r : ShowRecord) (i : Fin 8) (l : Licence), s.ctl.mark = .full → s.ctl.committed = false →
    s.ctl.record = some r → s.count.reserved = some i → licenceOf s.count.ram.licences[i] = some l →
    s.ctl.position + 1 = s.ctl.commitUnit →
    (∀ reactions, reactions = blockReactions ∨ reactions = .syncLoss :: blockReactions →
      ShowingCommitted s r i l (advance reactions s)) ∧
    (s.power.on = true →
      (s.power.brstLow = false → s.clock.edgeSeen = false → s.clock.substate = .tracking → isInternal s = false →
        timeBefore s.clock.timebase (s.clock.expected - BitVec.ofNat 48 s.clock.window) = false →
        ∃ t, exec .fsyncInEdge s = .next t ∧ ShowingCommitted s r i l t) ∧
      (windowDue s = true → ∃ t, exec .windowExpiry s = .next t ∧ ShowingCommitted s r i l t) ∧
      (internalDue s = true → ∃ t, exec .internalExpiry s = .next t ∧ ShowingCommitted s r i l t))

/-! ### The show -/

/-- The derived values (R38): S_0 is 0, each later offset adds one duration, T is their sum and is at most 16,777,200 under the bounds
of R37, the offsets increase strictly, spu is a whole number at every rate, the current reel at q is the largest r with S_r
at or below q, and an advance to q enters reel i above 0 exactly when S_i is q (R51).  The rates are Table 2-1's, row by row, and R37's;
the values of the show are those of its record. -/
def Obligations.DerivedValuesOfARecord : Prop :=
  (∀ r : ShowRecord, reelStart r 0 = 0 ∧
    (∀ i e, r.reels[i]? = some e → i + 1 < r.reels.length → reelStart r (i + 1) = reelStart r i + e.duration) ∧
    totalDuration r = (r.reels.map (·.duration)).sum ∧
    (r.reels.length ≤ 16 → (∀ e ∈ r.reels, e.duration ≤ 1048575) → totalDuration r ≤ 16777200) ∧
    ((∀ e ∈ r.reels, 1 ≤ e.duration) →
      (∀ i j, i < j → j < r.reels.length → reelStart r i < reelStart r j) ∧
      (r.reels ≠ [] → ∀ q, q ≤ totalDuration r →
        currentReel r q < r.reels.length ∧ reelStart r (currentReel r q) ≤ q ∧
          ∀ i, i < r.reels.length → reelStart r i ≤ q → i ≤ currentReel r q) ∧
      ∀ q e, reelEntered r q = some e ↔ ∃ i, 0 < i ∧ r.reels[i]? = some e ∧ reelStart r i = q)) ∧
  (∀ r : ShowRecord, samplesPerUnit r * rateN r.editRate = samplesPerSecond r.sampleRate * rateD r.editRate) ∧
  (∀ e : EditRate, (rateN e, rateD e) = match e with
    | .r24 => (24, 1) | .r25 => (25, 1) | .r30 => (30, 1) | .r48 => (48, 1) | .r50 => (50, 1) | .r60 => (60, 1)
    | .r24000over1001 => (24000, 1001)) ∧
  (∀ f : SampleRate, samplesPerSecond f = match f with | .hz48000 => 48000 | .hz96000 => 96000) ∧
  (∀ (s : State) (r : ShowRecord), s.ctl.record = some r →
    showTotal s = totalDuration r ∧ showSpu s = samplesPerUnit r ∧ showReel s = currentReel r s.ctl.position)

/-- LOAD_SHOW: the twelve checks of R39 in order, each with its refusal, nothing changed; else the record of R40, the show LOADED
with p 0, both lanes flushed and their counts clear, and the SHOW_STATE event from EMPTY alone.  The codes of the rates and the sync
source are Table 11-16's.  The port acknowledges the packet's bytes (R157), here as in every request (PacketsReadBack). -/
def Obligations.LoadShowFollowsItsChecks : Prop :=
  (∀ (w : ShowWrite) (s : State), Linked s →
    let rows : List Row :=
      [⟨s.ctl.state = .empty || s.ctl.state = .loaded, .refusedState, 1⟩, ⟨w.licenceSlot.toNat ≤ 7, .refusedValue, 2⟩,
       ⟨w.editRate.toNat ≤ 6, .refusedValue, 3⟩, ⟨w.sampleRate.toNat ≤ 1, .refusedValue, 4⟩,
       ⟨1 ≤ w.channels.toNat && w.channels.toNat ≤ 16, .refusedValue, 5⟩, ⟨w.sync.toNat ≤ 1, .refusedValue, 6⟩,
       ⟨w.lead.toNat ≤ 255, .refusedValue, 7⟩, ⟨w.trail.toNat ≤ 15 || w.trail.toNat = 255, .refusedValue, 8⟩,
       ⟨1 ≤ w.reels.length && w.reels.length ≤ 16, .refusedValue, 9⟩,
       ⟨w.reels.all fun e => 1 ≤ e.duration.toNat && e.duration.toNat ≤ 1048575, .refusedValue, 10⟩,
       ⟨w.reels.all fun e => e.pictureRegion.toNat ≤ 23 && e.soundRegion.toNat ≤ 23, .refusedValue, 11⟩,
       ⟨w.reels.all fun e => e.pictureKey.toNat ≤ 15 && e.soundKey.toNat ≤ 15, .refusedValue, 12⟩]
    let reel (e : ReelWrite) : Reel :=
      { duration := e.duration.toNat, pictureRegion := Fin.ofNat 24 e.pictureRegion.toNat,
        soundRegion := Fin.ofNat 24 e.soundRegion.toNat, pictureKey := Fin.ofNat 16 e.pictureKey.toNat,
        soundKey := Fin.ofNat 16 e.soundKey.toNat }
    let record : ShowRecord :=
      { compositionId := w.compositionId, licenceSlot := Fin.ofNat 8 w.licenceSlot.toNat
        editRate := (editRateOf w.editRate).getD .r24, sampleRate := (sampleRateOf w.sampleRate).getD .hz48000
        channels := w.channels.toNat, sync := (syncSourceOf w.sync).getD .projector
        lead := if w.lead.toNat = 0 then 48 else w.lead.toNat
        trail := if w.trail.toNat = 255 then 2 else w.trail.toNat, reels := w.reels.map reel }
    exec (.loadShow w) s = .next (acknowledging (6 + (16 + 8 * w.reels.length)) (judged s
      { s with
        ctl := { state := .loaded, mark := .none, record := some record, position := 0, committed := false, commitUnit := 0,
                 keyLapsed := s.ctl.keyLapsed }
        cues := { s.cues with laneA := { lowMark := s.cues.laneA.lowMark }, laneB := { lowMark := s.cues.laneB.lowMark } }
        link := if s.ctl.state = .empty then answeredWith s.link 2#7 else answered s.link .ok 0
        out := {} } rows))) ∧
  (∀ b : Byte,
    editRateOf b = [EditRate.r24, .r25, .r30, .r48, .r50, .r60, .r24000over1001][b.toNat]? ∧
    sampleRateOf b = [SampleRate.hz48000, .hz96000][b.toNat]? ∧
    syncSourceOf b = [SyncSource.projector, .internal][b.toNat]?)

/-- PRIME on a loaded record: the nine checks and then ten for each reel in order (R43), each with its refusal, nothing changed;
else R44, R86, R98 and R134: PRIMED and full with p 0, C from T and the permille, every named key slot IN_USE, the
licence slot reserved, frontiers none, late counts 0, unity gain, contexts freed, starvation conditions not active.  The named key
slots are the picture and sound slots of the record's reels, and each is taken from LOADED to IN_USE (R44). -/
def Obligations.PrimeFollowsItsChecks : Prop :=
  (∀ (s : State) (r : ShowRecord), Linked s → s.ctl.record = some r →
    let slot := s.count.ram.licences[r.licenceSlot]
    let l := slotLicence slot
    let now := s.secure.time
    let first : List Row :=
      [⟨s.ctl.state = .loaded, .refusedState, 1⟩, ⟨s.secure.valid, .refusedState, 2⟩, ⟨slot = .active l, .refusedState, 3⟩,
       ⟨l.compositionId = r.compositionId, .refusedValue, 4⟩, ⟨l.notBefore ≤ now && now < l.notAfter, .refusedValue, 5⟩,
       ⟨1 ≤ l.remaining, .refusedState, 6⟩,
       ⟨l.screenId = s.count.ram.screenId && s.count.ram.screenId ≠ 65535#16, .refusedValue, 7⟩,
       ⟨s.count.ram.log.length < 64, .refusedState, 8⟩, ⟨s.count.status ≠ .failed, .refusedState, 9⟩]
    let keyRows (i : Fin 16) (kind : EssenceKind) (d : Nat) : List Row :=
      [⟨(keyFieldsOf s.keys[i]).map (·.kind) = some kind, .refusedValue, d⟩,
       ⟨isLoadedKey s.keys[i], .refusedState, d + 1⟩,
       ⟨(keyFieldsOf s.keys[i]).any fun f => f.notBefore ≤ now && now < f.notAfter, .refusedValue, d + 2⟩]
    let reelRows (x : Reel × Nat) : List Row :=
      let p := s.path.regions[x.1.pictureRegion]
      let q := s.path.regions[x.1.soundRegion]
      [⟨p.valid && p.kind = .pictureEssence && p.reel = x.2, .refusedValue, 10⟩,
       ⟨x.1.duration * p.stride ≤ p.size, .refusedValue, 11⟩,
       ⟨q.valid && q.kind = .soundEssence && q.reel = x.2, .refusedValue, 12⟩,
       ⟨x.1.duration * samplesPerUnit r ≤ q.size, .refusedValue, 13⟩] ++
      keyRows x.1.pictureKey .picture 14 ++ keyRows x.1.soundKey .sound 17
    exec .prime s = .next (acknowledging 6 (judged s
      { s with
        ctl := { s.ctl with
          state := .primed, mark := .full, position := 0, committed := false
          commitUnit := Nat.max 1 (totalDuration r * l.permille / 1000) }
        keys := Vector.ofFn fun i => if i ∈ namedKeys r then takeSlot s.keys[i] else s.keys[i]
        unpack := { s.unpack with context0 := none, context1 := none, frontier := none, late := 0, starved := false }
        sound := { s.sound with
          frontier := none, late := 0, starved := false
          ramp := { startSample := 0, startGain := 32768, target := .unity, length := s.sound.rampLength } }
        count := { s.count with reserved := some r.licenceSlot, blanked := 0 }
        sup := withdrawn [.pictureStarved, .soundStarved] s.sup
        link := answeredWith s.link 2#7
        out := {} } (first ++ r.reels.zipIdx.flatMap reelRows)))) ∧
  (∀ (r : ShowRecord) (i : Fin 16), i ∈ namedKeys r ↔ ∃ e ∈ r.reels, e.pictureKey = i ∨ e.soundKey = i) ∧
  (∀ x : KeySlot,
    takeSlot x = (match x with | .loaded f m => .inUse f m | other => other) ∧
    (isLoadedKey x = true ↔ ∃ f m, x = .loaded f m) ∧
    keyFieldsOf x = match x with
      | .empty => none
      | .loaded f _ | .inUse f _ | .lapsed f _ _ | .expired f => some f) ∧
  (∀ x : LicenceSlot, licenceOf x = (match x with | .empty => none | .active l | .suspended l => some l) ∧
    ∀ l, licenceOf x = some l → slotLicence x = l)

/-- PRIME_PREVIEW (R46): refused outside LOADED; else PRIMED and preview, with no key slot, licence slot or store touched, C 0, and
the rest of the show set as for PRIME.  UNLOAD (R54): refused outside LOADED; else EMPTY with no record, the committed flag
clear and C 0, the lanes, key slots, licences and Region Table untouched. -/
def Obligations.PreviewAndUnloadTakeNothing : Prop :=
  ∀ s : State, Linked s → exec .primePreview s = .next (acknowledging 6 (judged s
    { s with
      ctl := { s.ctl with state := .primed, mark := .preview, position := 0, committed := false, commitUnit := 0 }
      unpack := { s.unpack with context0 := none, context1 := none, frontier := none, late := 0, starved := false }
      sound := { s.sound with
        frontier := none, late := 0, starved := false
        ramp := { startSample := 0, startGain := 32768, target := .unity, length := s.sound.rampLength } }
      count := { s.count with blanked := 0 }
      sup := withdrawn [.pictureStarved, .soundStarved] s.sup
      link := answeredWith s.link 2#7
      out := {} }
    [⟨s.ctl.state = .loaded, .refusedState, 1⟩])) ∧
  exec .unload s = .next (acknowledging 6 (judged s
    { s with
      ctl := { s.ctl with state := .empty, record := none, position := 0, committed := false, commitUnit := 0 }
      link := answeredWith s.link 2#7
      out := {} }
    [⟨s.ctl.state = .loaded, .refusedState, 1⟩]))

/-- START (R23, R47, R110): refused outside PRIMED, and with detail 2 under a latch; else RUNNING with p 0, the Show Clock out of IDLE
with its counts clear (a projector's anchor, k and E keep their values until its first edge: DEDUCED, log 27), both lanes
activated for p 0, and the events set. -/
def Obligations.StartBeginsTheShow : Prop :=
  ∀ (s : State) (r : ShowRecord), Linked s → s.ctl.record = some r → exec .start s = .next (acknowledging 6 (judged s
    { s with
      ctl := { s.ctl with state := .running, position := 0 }
      clock := leavesIdle r { s.clock with accepted := 0, glitches := 0, missed := 0, period := 0, span := 0 }
      cues := lanesAfter s.cues 0 (totalDuration r)
      link := answeredWith s.link (2#7 ||| (if laneLow 0 (totalDuration r) s.cues.laneA then 16#7 else 0#7) |||
        (if laneLow 0 (totalDuration r) s.cues.laneB then 32#7 else 0#7))
      out := {} }
    [⟨s.ctl.state = .primed, .refusedState, 1⟩, ⟨outputCondition s ≠ .blankLatched, .refusedState, 2⟩]))

/-- HOLD (R22, R48, R90, R93): refused outside RUNNING; else HELD at the same position, the Show Clock IDLE with its expiry
cancelled, a ramp to silence from the sound frontier, the pending mask active, and the event set.  The ramp after one of length 0 is
as R93's bullets have it (log 33). -/
def Obligations.HoldFreezesTheShow : Prop :=
  ∀ s : State, Linked s → exec .hold s = .next (acknowledging 6 (judged s
    { s with
      ctl := { s.ctl with state := .held }
      clock := { s.clock with substate := .idle, anchorDeadline := none }
      sound := { s.sound with ramp := rampTo s.sound .silence, activeMask := s.sound.pendingMask }
      link := answeredWith s.link 2#7
      out := {} }
    [⟨s.ctl.state = .running, .refusedState, 1⟩]))

/-- RESUME (R23, R49, R93): refused outside HELD, and with detail 2 under a latch; else RUNNING at the same position, the Show Clock
out of IDLE with its counts kept (a projector's anchor, k and E keep their values until its first edge: DEDUCED, log 27), a
ramp to unity, no lane activated, and the event set.  The ramp after one of length 0 is
as R93's bullets have it (log 33). -/
def Obligations.ResumeGoesOn : Prop :=
  ∀ (s : State) (r : ShowRecord), Linked s → s.ctl.record = some r → exec .resume s = .next (acknowledging 6 (judged s
    { s with
      ctl := { s.ctl with state := .running }
      clock := leavesIdle r s.clock
      sound := { s.sound with ramp := rampTo s.sound .unity }
      link := answeredWith s.link 2#7
      out := {} }
    [⟨s.ctl.state = .held, .refusedState, 1⟩, ⟨outputCondition s ≠ .blankLatched, .refusedState, 2⟩]))

/-- STOP (R53, R86, R90, R98, R114): refused in EMPTY and LOADED; else LOADED with p 0 and no mark, the clock IDLE, the lanes flushed,
the key slots of a full show released, the reservation gone, the four conditions withdrawn with the Supervisor's flags,
latched set and countdown kept, the committed flag and C kept.  A slot released goes from IN_USE to LOADED, and from LAPSED to
EXPIRED (R53); PrimeFollowsItsChecks writes out which slots a record names. -/
def Obligations.StopReleasesTheShow : Prop :=
  (∀ (s : State) (r : ShowRecord), Linked s → s.ctl.record = some r → exec .stop s = .next (acknowledging 6 (judged s
    { s with
      ctl := { s.ctl with state := .loaded, mark := .none, position := 0, keyLapsed := false }
      clock := { s.clock with substate := .idle, anchorDeadline := none, syncLoss := false }
      keys := if s.ctl.mark = .full then
          Vector.ofFn fun i => if i ∈ namedKeys r then releaseSlot s.keys[i] else s.keys[i]
        else s.keys
      unpack := { s.unpack with context0 := none, context1 := none, frontier := none, late := 0, starved := false }
      sound := { s.sound with activeMask := s.sound.pendingMask, frontier := none, late := 0, starved := false }
      cues := { s.cues with laneA := { lowMark := s.cues.laneA.lowMark }, laneB := { lowMark := s.cues.laneB.lowMark } }
      count := { s.count with reserved := none }
      sup := withdrawn [.syncLoss, .pictureStarved, .soundStarved, .keyLapsed] s.sup
      link := answeredWith s.link 2#7
      out := {} }
    [⟨s.ctl.state ≠ .empty && s.ctl.state ≠ .loaded, .refusedState, 1⟩]))) ∧
  (∀ x : KeySlot, releaseSlot x = match x with
    | .inUse f m => .loaded f m
    | .lapsed f _ _ => .expired f
    | other => other)

/-- R42: a show command in a state that does not accept it is refused with REFUSED_STATE, detail 1, which the LINK record shows, and
nothing else changes; the same code answers LOAD SHOW and a region record in a primed show. -/
def Obligations.WrongStateIsRefused : Prop :=
  (∀ s : State, Linked s →
    let refused := acknowledging 6 (refusedAs s .refusedState 1)
    (s.ctl.state ≠ .loaded → exec .prime s = .next refused ∧
      exec .primePreview s = .next refused ∧ exec .unload s = .next refused) ∧
    (s.ctl.state ≠ .primed → exec .start s = .next refused) ∧
    (s.ctl.state ≠ .running → exec .hold s = .next refused) ∧
    (s.ctl.state ≠ .held → exec .resume s = .next refused) ∧
    (s.ctl.state = .empty ∨ s.ctl.state = .loaded → exec .stop s = .next refused) ∧
    (s.ctl.state ≠ .empty → s.ctl.state ≠ .loaded →
      (∀ w, exec (.loadShow w) s =
        .next (acknowledging (6 + (16 + 8 * w.reels.length)) (refusedAs s .refusedState 1))) ∧
      ∀ i w, exec (.regionRecord i w) s = .next (acknowledging 38 (refusedAs s .refusedState 1))) ∧
    linkRecord (refusedAs s .refusedState 1) = [5#8, 1#8, 0#8, 0#8])

/-! ### Keys and secure time -/

/-- LOAD_KEY: the six checks of R61 in order on what the unwrap function yields, each with its refusal, nothing changed; else the
slot LOADED with the unwrapped fields. -/
def Obligations.LoadKeyFollowsItsChecks : Prop :=
  (∀ (i : Fin 16) (blob : Blob) (check : BitVec 32) (s : State), Linked s →
    let p := Config.unwrapKey blob
    exec (.loadKey i blob check) s = .next (acknowledging 58 (judged s
      { s with
        keys := vput s.keys i (.loaded
          { kind := p.kind.getD .picture, keyId := p.keyId, nonce := p.nonce, notBefore := p.notBefore.toNat,
            notAfter := p.notAfter.toNat } p.material)
        link := answered s.link .ok 0
        out := {} }
      [⟨keyStateCode s.keys[i] = 0#8 || keyStateCode s.keys[i] = 4#8, .refusedState, 1⟩, ⟨s.secure.valid, .refusedState, 2⟩,
       ⟨p.check = check, .keyWrap, 3⟩, ⟨p.kind.isSome, .refusedValue, 4⟩,
       ⟨p.notBefore.toNat < p.notAfter.toNat, .refusedValue, 5⟩, ⟨s.secure.time < p.notAfter.toNat, .refusedValue, 6⟩]))) ∧
  (∀ x : KeySlot, (keyStateCode x = 0#8 ↔ x = .empty) ∧ (keyStateCode x = 4#8 ↔ ∃ f, x = .expired f))

/-- R62: PURGE_KEY empties a LOADED or EXPIRED slot, changes nothing of an EMPTY one, and is refused for an IN_USE or LAPSED one, in
every show state and with secure time valid or not; an index above 15 is BAD_INDEX; PRIME of a record that names an
EMPTY slot is refused, the kind check of such a slot failing (with the code and detail of the first check that fails, which
PrimeFollowsItsChecks gives). -/
def Obligations.PurgeKeyEmptiesAFreeSlot : Prop :=
  (∀ (i : Fin 16) (s : State), Linked s →
    let done (k : Vector KeySlot 16) : State := { s with keys := k, link := answered s.link .ok 0, out := { acked := 6 } }
    (∀ f m, s.keys[i] = .loaded f m → exec (.purgeKey i) s = .next (done (vput s.keys i .empty))) ∧
    (∀ f, s.keys[i] = .expired f → exec (.purgeKey i) s = .next (done (vput s.keys i .empty))) ∧
    (s.keys[i] = .empty → exec (.purgeKey i) s = .next (done s.keys)) ∧
    (∀ f m, s.keys[i] = .inUse f m → exec (.purgeKey i) s = .next (acknowledging 6 (refusedAs s .refusedState 1))) ∧
    (∀ f m g, s.keys[i] = .lapsed f m g → exec (.purgeKey i) s = .next (acknowledging 6 (refusedAs s .refusedState 1)))) ∧
  (∀ (index : Byte) (data : List Byte), 15 < index.toNat → linkRefusal 3#8 12#8 index data = some .badIndex) ∧
  (∀ (s : State) (r : ShowRecord) (e : Reel), Linked s → s.ctl.record = some r → e ∈ r.reels →
    (s.keys[e.pictureKey] = .empty → (keyFieldsOf s.keys[e.pictureKey]).map (·.kind) ≠ some .picture ∧
      ∃ code d, code ≠ .ok ∧ exec .prime s = .next (acknowledging 6 (refusedAs s code d))) ∧
    (s.keys[e.soundKey] = .empty → (keyFieldsOf s.keys[e.soundKey]).map (·.kind) ≠ some .sound ∧
      ∃ code d, code ≠ .ok ∧ exec .prime s = .next (acknowledging 6 (refusedAs s code d))))

/-- SECURE_TICK, KEY_EXPIRY and TRIM_YEAR_CLOSE (R63, R65, R66, R69): the tick counts while VALID, closes the trim year at its last
tick, and the expiries it makes follow at once (log 9): LOADED becomes EXPIRED, IN_USE becomes LAPSED with the current
reel; KEY_EXPIRY does the same to its one slot, and TRIM_YEAR_CLOSE closes a year that has run its length, else has no effect (log 5). -/
def Obligations.SecureTickCountsAndExpires : Prop :=
  (∀ s : State, s.power.on = true →
    let expired (now : Nat) (x : KeySlot) : KeySlot :=
      match x with
      | .loaded f m => if f.notAfter ≤ now then .expired f else .loaded f m
      | .inUse f m => if f.notAfter ≤ now then .lapsed f m (showReel s) else .inUse f m
      | other => other
    let year (c : SecureClock) : SecureClock :=
      if c.yearOpen = true then
        if c.elapsed + 1 < 31536000 then { c with elapsed := c.elapsed + 1 }
        else { c with yearOpen := false, elapsed := 0, trimSum := 0 }
      else c
    let now := Nat.min (s.secure.time + 1) 4294967295
    (s.secure.valid = true →
      exec .secureTick s = .next { s with
        secure := year { s.secure with time := now }, keys := Vector.ofFn fun i => expired now s.keys[i], out := {} } ∧
      ∀ i, exec (.keyExpiry i) s = .next { s with
        keys := vput s.keys i (expired s.secure.time s.keys[i]), out := {} }) ∧
    (s.secure.valid = false →
      exec .secureTick s = .next { s with out := {} } ∧ ∀ i, exec (.keyExpiry i) s = .next { s with out := {} }) ∧
    (s.secure.yearOpen = true → 31536000 ≤ s.secure.elapsed →
      exec .trimYearClose s = .next { s with
        secure := { s.secure with yearOpen := false, elapsed := 0, trimSum := 0 }, out := {} }) ∧
    (s.secure.yearOpen = false ∨ s.secure.elapsed < 31536000 → exec .trimYearClose s = .next { s with out := {} })) ∧
  (∀ s : State, s.power.on = false → s.power.backupHeld = true →
    exec .secureTick s = .next { s with secure := secureTicked s.secure, out := {} })

/-- R67: SET_TIME while TIME_INVALID sets the time and makes it VALID with the trim year CLOSED, and no key slot changes; while
VALID it is refused; the time counts at the next tick.  With SecureOk, an accepted SET TIME finds every slot EMPTY. -/
def Obligations.SetTimeIsTakenOnce : Prop :=
  ∀ (v : BitVec 32) (s : State), Linked s →
    (s.secure.valid = false → exec (.setTime v) s = .next { s with
      secure := { valid := true, time := v.toNat, yearOpen := false, elapsed := 0, trimSum := 0 }
      link := answered s.link .ok 0
      out := { acked := 10 } }) ∧
    (s.secure.valid = true → exec (.setTime v) s = .next (acknowledging 10 (refusedAs s .refusedState 1))) ∧
    (SecureOk s → s.secure.valid = false → ∀ i : Fin 16, s.keys[i] = .empty) ∧
    (∀ t, s.secure.valid = false → exec (.setTime v) s = .next t → ∃ u, exec .secureTick t = .next u ∧
      u.secure.time = Nat.min (v.toNat + 1) 4294967295 ∧ u.secure.valid = true)

/-- TRIM_TIME (R68): refused while TIME_INVALID; else the year opens if CLOSED, the sum is clamped to 360 seconds either way, the
part of the delta that fits is applied and returned, and the slots whose not-after the new time reaches expire. -/
def Obligations.TrimTimeIsBounded : Prop :=
  (∀ (d : BitVec 16) (s : State), Linked s →
    (s.secure.valid = false → exec (.trimTime d) s = .next (acknowledging 8 (refusedAs s .refusedState 1))) ∧
    (s.secure.valid = true → s.secure.time ≤ 4294967295 → ∃ (a : Int) (t : State), exec (.trimTime d) s = .next t ∧
      let sum := if s.secure.yearOpen then s.secure.trimSum else 0
      let wanted := max (-360) (min 360 (sum + d.toInt)) - sum
      a = max (-(s.secure.time : Int)) (min (4294967295 - (s.secure.time : Int)) wanted) ∧
      t = { s with
        secure := { valid := true, time := t.secure.time, yearOpen := true,
                    elapsed := if s.secure.yearOpen then s.secure.elapsed else 0, trimSum := sum + a }
        keys := Vector.ofFn fun i => expireSlot t.secure.time (showReel s) s.keys[i]
        link := { answered s.link .ok 0 with delta := a }
        out := { acked := 8 } } ∧
      (t.secure.time : Int) = (s.secure.time : Int) + a ∧
      (-360 ≤ sum → sum ≤ 360 → -360 ≤ t.secure.trimSum ∧ t.secure.trimSum ≤ 360 ∧ -720 ≤ a ∧ a ≤ 720))) ∧
  (∀ (now grace : Nat) (x : KeySlot), expireSlot now grace x = match x with
    | .loaded f m => if f.notAfter ≤ now then .expired f else .loaded f m
    | .inUse f m => if f.notAfter ≤ now then .lapsed f m grace else .inUse f m
    | other => other)

/-! ### Licences, the Showing Log, the Count Store -/

/-- LOAD_LICENCE: the eight checks of R131 in order on what the unwrap function yields, each with its refusal, nothing changed; else
R132: the slot ACTIVE with the unwrapped fields and `used` carried forward, and a link write of the slot started.  The store's code is 1
when it is BUSY; PrimeFollowsItsChecks writes out the licence that a slot holds. -/
def Obligations.LoadLicenceFollowsItsChecks : Prop :=
  (∀ (i : Fin 8) (blob : Blob) (check : BitVec 32) (s : State), Linked s →
    let p := Config.unwrapLicence blob
    let held := licenceOf s.count.ram.licences[i]
    let used := (held.map (·.used)).getD 0
    let slot : LicenceSlot := .active
      { licenceId := p.licenceId, compositionId := p.compositionId, granted := p.granted, remaining := p.granted - used,
        used := used, notBefore := p.notBefore.toNat, notAfter := p.notAfter.toNat, permille := p.permille,
        screenId := p.screenId }
    exec (.loadLicence i blob check) s = .next (acknowledging 58 (judged s
      { s with
        count := { s.count with
          ram := { s.count.ram with licences := vput s.count.ram.licences i slot }, status := .busy (.slot i slot) }
        link := answered s.link .ok 0
        out := {} }
      [⟨s.count.status ≠ .failed, .storeFailed, 1⟩, ⟨storeCode s.count.status ≠ 1#8, .busy, 2⟩,
       ⟨s.count.reserved ≠ some i, .refusedState, 3⟩, ⟨s.secure.valid, .refusedState, 4⟩, ⟨p.check = check, .keyWrap, 5⟩,
       ⟨1 ≤ p.granted && p.granted ≤ 65535 && 1 ≤ p.permille && p.permille ≤ 1000 &&
          p.notBefore.toNat < p.notAfter.toNat && s.secure.time < p.notAfter.toNat, .refusedValue, 6⟩,
       ⟨held.all fun l => l.licenceId = p.licenceId, .refusedState, 7⟩, ⟨used ≤ p.granted, .refusedValue, 8⟩]))) ∧
  (∀ x : StoreStatus, storeCode x = 1#8 ↔ ∃ w, x = .busy w)

/-- R133: DELETE_LICENCE and its four checks in order; an EMPTY slot that passes them is left with no write started, else the slot
becomes EMPTY and a link write of it is started.  No record of a lawful log names an EMPTY slot. -/
def Obligations.DeleteLicenceFollowsItsChecks : Prop :=
  (∀ (i : Fin 8) (s : State), Linked s →
    exec (.deleteLicence i) s = .next (acknowledging 6 (judged s
      { s with
        count := if s.count.ram.licences[i] = .empty then s.count else
          { s.count with
            ram := { s.count.ram with licences := vput s.count.ram.licences i .empty }, status := .busy (.slot i .empty) }
        link := answered s.link .ok 0
        out := {} }
      [⟨s.count.status ≠ .failed, .storeFailed, 1⟩, ⟨storeCode s.count.status ≠ 1#8, .busy, 2⟩,
       ⟨s.count.reserved ≠ some i, .refusedState, 3⟩, ⟨s.count.ram.log.all fun x => x.slot ≠ i, .refusedState, 4⟩]))) ∧
  (∀ (m : CountImage) (i : Fin 8), ImageOk m → m.licences[i] = .empty → ∀ x ∈ m.log, x.slot ≠ i)

/-- R138: POP_LOG and its three checks in order, in every show state; else the oldest record leaves the RAM copy and a link write of
the log is started, LOG_HIGH kept.  Sent again for the same record, once the store is READY, it is refused. -/
def Obligations.PopLogTakesTheOldest : Prop :=
  (∀ (n : BitVec 64) (s : State), Linked s →
    exec (.popLog n) s = .next (acknowledging 14 (judged s
      { s with
        count := { s.count with
          ram := { s.count.ram with log := s.count.ram.log.drop 1 }, status := .busy (.log (s.count.ram.log.drop 1)) }
        link := answered s.link .ok 0
        out := {} }
      [⟨s.count.status ≠ .failed, .storeFailed, 1⟩, ⟨storeCode s.count.status ≠ 1#8, .busy, 2⟩,
       ⟨s.count.ram.log.head?.any fun x => x.sequence = n.toNat, .refusedValue, 3⟩]))) ∧
  (∀ (n : BitVec 64) (s t : State), Linked s → ImageOk s.count.ram → s.count.ram.sequence < 18446744073709551615 →
    s.count.status = .ready → (∃ x, s.count.ram.log.head? = some x ∧ x.sequence = n.toNat) →
    exec (.popLog n) s = .next t → t.link.eventPending = s.link.eventPending ∧
    ∀ u : State, Linked u → u.count.status = .ready → u.count.ram.log = t.count.ram.log →
      exec (.popLog n) u = .next (acknowledging 14 (refusedAs u .refusedValue 3)))

/-- SET_SCREEN and its four checks in order (R143); else the RAM copy takes the screen id and a link write of it is started. -/
def Obligations.SetScreenIsTakenOnce : Prop :=
  ∀ (id : BitVec 16) (s : State), Linked s → exec (.setScreen id) s = .next (acknowledging 8 (judged s
    { s with
      count := { s.count with ram := { s.count.ram with screenId := id }, status := .busy (.screen id) }
      link := answered s.link .ok 0
      out := {} }
    [⟨s.count.status ≠ .failed, .storeFailed, 1⟩, ⟨storeCode s.count.status ≠ 1#8, .busy, 2⟩,
     ⟨s.count.ram.screenId = 65535#16, .refusedState, 3⟩, ⟨id ≠ 65535#16, .refusedValue, 4⟩]))

/-- STORE_WRITE_COMPLETION (R139, R142): the store holds what the write covers and STORE_DONE is set; with commits waiting their write
starts at once, its image taken now, and the set empties; else the store is READY, and a reload owed to a booth reset is
made, LOG_HIGH following it.  The mark of a commit that joined the waiting set in this microsecond, the model's own, clears at
every completion (log 30). -/
def Obligations.CompletedWriteStoresItsImage : Prop :=
  ∀ (s : State) (w : StoreWrite), s.power.on = true → s.count.status = .busy w →
    let store : CountImage :=
      match w with
      | .slot i image => { s.count.store with licences := vput s.count.store.licences i image }
      | .log image => { s.count.store with log := image }
      | .screen image => { s.count.store with screenId := image }
      | .commit slots log sequence =>
        { s.count.store with
          licences := slots.foldl (fun v p => vput v p.1 p.2) s.count.store.licences, log := log, sequence := sequence }
    let done := s.link.eventPending ||| 64#7
    (s.count.waiting ≠ [] → exec .storeWriteCompletion s = .next { s with
      count := { s.count with
        store := store
        status := .busy (.commit (s.count.waiting.map fun i => (i, s.count.ram.licences[i])) s.count.ram.log
          s.count.ram.sequence)
        waiting := [], commitSeen := false }
      link := { s.link with eventPending := done }
      out := {} }) ∧
    (s.count.waiting = [] → s.count.reloadDue = false → exec .storeWriteCompletion s = .next { s with
      count := { s.count with store := store, status := .ready, commitSeen := false }
      link := { s.link with eventPending := done }
      out := {} }) ∧
    (s.count.waiting = [] → s.count.reloadDue = true → exec .storeWriteCompletion s = .next { s with
      count := { s.count with store := store, status := .ready, ram := store, reloadDue := false, commitSeen := false }
      link := { s.link with eventPending := if 48 ≤ store.log.length then done ||| 8#7 else done }
      out := {} })

/-- STORE_WRITE_FAILURE (R140, R142, R147, R151): the store is FAILED with its contents kept, the covered slots of a commit write and
the waiting slots are SUSPENDED in RAM, STORE_DONE is set and STORE_FAIL is raised: once, or, when a commit joined the
waiting set in the same microsecond, once or twice, as the two events' order has it (R144; a free value, log 30).  Under
LATCH the output is BLANK_LATCHED, and a RUNNING show is HELD.  The slots of a commit write are those it carries; a slot that holds
a licence becomes SUSPENDED with it. -/
def Obligations.FailedWriteSuspendsItsSlots : Prop :=
  (∀ (s : State) (w : StoreWrite), s.power.on = true → s.count.status = .busy w →
    ∃ licences : Vector LicenceSlot 8,
      (∀ i : Fin 8, licences[i] =
        if i ∈ commitSlots w ∨ i ∈ s.count.waiting then suspendSlot s.count.ram.licences[i] else s.count.ram.licences[i]) ∧
      let u : State := { s with
        count := { s.count with
          ram := { s.count.ram with licences := licences }
          status := .failed, waiting := [], commitSeen := false, reloadDue := false }
        link := { s.link with eventPending := s.link.eventPending ||| 64#7 }
        out := {} }
      let once := afterRaise s.sound.ramp .storeFail u
      (s.count.commitSeen = false → exec .storeWriteFailure s = .next once) ∧
      (∃ t, exec .storeWriteFailure s = .next t ∧ (t = once ∨ t = afterRaise s.sound.ramp .storeFail once) ∧
        ((policyOfKind s .storeFail).policy = .latch →
          outputCondition t = .blankLatched ∧ (faultOf t .storeFail).flag = true ∧
          t.link.eventPending.getLsbD 6 = true ∧ t.link.eventPending.getLsbD 0 = true ∧
          t.sup.countdown = s.sup.countdown ∧
          (s.ctl.state = .running → t.ctl = { s.ctl with state := .held } ∧ t.clock.substate = .idle) ∧
          (s.ctl.state ≠ .running → t.ctl = s.ctl ∧ t.clock = s.clock)))) ∧
  (∀ (w : StoreWrite) (i : Fin 8), i ∈ commitSlots w ↔
    ∃ slots log sequence, w = .commit slots log sequence ∧ ∃ image, (i, image) ∈ slots) ∧
  (∀ x : LicenceSlot, suspendSlot x = match x with
    | .empty => .empty
    | .active l => .suspended l
    | .suspended l => .suspended l)

/-! ### The Supervisor -/

/-- CLEAR_FAULTS (R152): a named condition kind whose condition is active is kept, and counted in the detail; every other named kind
loses its flag and its place in the latched set, ACCESS and UNIT_CHECK their record too; a kind not named is unchanged; the
raise counts, the countdown and the show stay, and the output's return to OPEN ramps the sound of a RUNNING show.  The nine kinds,
their indexes and which of them are condition kinds are the rows of R145's table. -/
def Obligations.ClearFaultsKeepsActiveConditions : Prop :=
  (∀ (mask : BitVec 16) (s : State), Linked s →
    ∃ t, exec (.clearFaults mask) s = .next t ∧
      (∀ k, faultOf t k = if mask.getLsbD (faultIndex k).val && !(isConditionKind k && (faultOf s k).condition) then
        { faultOf s k with flag := false, latched := false } else faultOf s k) ∧
      t.link = answered s.link .ok (allKinds.filter fun k =>
        mask.getLsbD (faultIndex k).val && (isConditionKind k && (faultOf s k).condition)).length ∧
      t.link.detail ≤ 5 ∧
      t.path = (if mask.getLsbD 7 then { s.path with access := none } else s.path) ∧
      t.unpack = (if mask.getLsbD 3 then { s.unpack with unitCheck := none } else s.unpack) ∧
      t.sup.policies = s.sup.policies ∧ t.sup.countdown = s.sup.countdown ∧ t.sup.watchdog = s.sup.watchdog ∧
      t.sound = (if outputCondition s ≠ .openOutput ∧ outputCondition t = .openOutput ∧ s.ctl.state = .running then
        { s.sound with ramp := rampTo s.sound .unity } else s.sound) ∧
      t.ctl = s.ctl ∧ t.clock = s.clock ∧ t.keys = s.keys ∧ t.secure = s.secure ∧ t.cues = s.cues ∧ t.overlay = s.overlay ∧
      t.count = s.count ∧ t.pending = s.pending ∧ t.power = s.power ∧ t.free = s.free ∧ t.out = { acked := 8 }) ∧
  allKinds = [.syncLoss, .pictureStarved, .soundStarved, .unitCheck, .keyLapsed, .watchdog, .cueOverrun, .access, .storeFail] ∧
  (∀ k : FaultKind, allKinds[(faultIndex k).val]? = some k ∧
    (isConditionKind k = true ↔ k ∈ [FaultKind.syncLoss, .pictureStarved, .soundStarved, .keyLapsed, .watchdog]))

/-- The watchdog (R154): TICKLE and WD_TICK are feeds, which while it is enabled withdraw an active condition and set a fresh
deadline, and while it is disabled do nothing; a second WD_TICK of one microsecond, or one with BRST_N low, is no feed;
WATCHDOG_EXPIRY, when due, removes the deadline, and raises once for an episode, as R147 and R151 give a raise; one that is
not due has no effect (log 5); IdleStepCountsOneMicrosecond writes out when it is due. -/
def Obligations.WatchdogFeedsAndExpires : Prop :=
  ∀ s : State, s.power.on = true →
    let w := s.sup.watchdog
    let fed (x : Supervisor) : Supervisor :=
      if w.enabled = true then
        { x with
          faults := if w.condition = true then (withdrawn [.watchdog] x).faults else x.faults
          watchdog := { x.watchdog with
            condition := false, deadline := some (s.clock.timebase + BitVec.ofNat 48 (w.interval * 1000000)) } }
      else x
    (Linked s → exec .tickle s = .next { s with sup := fed s.sup, link := answered s.link .ok 0, out := { acked := 6 } }) ∧
    (s.power.brstLow = false → w.tickSeen = false → exec .wdTick s = .next { s with
      sup := fed { s.sup with watchdog := { w with tickSeen := true } }, out := {} }) ∧
    (s.power.brstLow = true ∨ w.tickSeen = true → exec .wdTick s = .next { s with out := {} }) ∧
    (watchdogDue s = true → w.condition = true → exec .watchdogExpiry s = .next { s with
      sup := { s.sup with watchdog := { w with deadline := none } }, out := {} }) ∧
    (watchdogDue s = true → w.condition = false → exec .watchdogExpiry s = .next (afterRaise s.sound.ramp .watchdog { s with
      sup := { s.sup with watchdog := { w with deadline := none, condition := true } }, out := {} })) ∧
    (watchdogDue s = false → exec .watchdogExpiry s = .next { s with out := {} })

/-- WRITE_POLICY and its three checks in order (R146, and R85, R92, R97, R154 for the further fields); else every field it carries is
stored, the flags, conditions, latched set and countdown kept; the WATCHDOG record sets a fresh deadline, or removes it and
withdraws an active condition.  The policies a kind allows are the rows of R145's table, and their codes Table 11-18's. -/
def Obligations.WritePolicyFollowsItsChecks : Prop :=
  (∀ (k : FaultKind) (w : PolicyWrite) (s : State), Linked s →
    let ramp := w.byte4.toNat * 256 + w.byte5.toNat
    let limit := 1 ≤ w.byte3.toNat && w.byte3.toNat ≤ 8
    let further : Bool :=
      match k with
      | .pictureStarved => limit
      | .soundStarved => limit && ramp ≤ 9600
      | .watchdog => w.byte4.toNat = 1 || w.byte4.toNat = 2 || w.byte4.toNat = 5 || w.byte4.toNat = 10
      | _ => true
    let on := w.byte3.getLsbD 0
    exec (.writePolicy k w) s = .next (acknowledging 14 (judged s
      { s with
        sup := { s.sup with
          faults := if k = .watchdog ∧ on = false ∧ s.sup.watchdog.condition = true then
            (withdrawn [.watchdog] s.sup).faults else s.sup.faults
          policies := vput s.sup.policies (faultIndex k)
            { policy := (policyOf w.policy).getD .report, blank := w.blank.toNat, lineFlag := w.lineFlag }
          watchdog := if k = .watchdog then
              { s.sup.watchdog with
                enabled := on, interval := w.byte4.toNat
                deadline := if on then some (s.clock.timebase + BitVec.ofNat 48 (w.byte4.toNat * 1000000)) else none
                condition := s.sup.watchdog.condition && on }
            else s.sup.watchdog }
        unpack := if k = .pictureStarved then { s.unpack with limit := w.byte3.toNat } else s.unpack
        sound := if k = .soundStarved then { s.sound with limit := w.byte3.toNat, rampLength := ramp } else s.sound
        link := answered s.link .ok 0
        out := {} }
      [⟨(policyOf w.policy).any (policyAllowed k), .refusedValue, 2⟩, ⟨1 ≤ w.blank.toNat && w.blank.toNat ≤ 255, .refusedValue, 3⟩,
       ⟨further, .refusedValue, 4⟩]))) ∧
  (∀ (k : FaultKind) (p : Policy),
    let allowed : List Policy := match k with
      | .syncLoss | .pictureStarved | .soundStarved => [.latch, .timed, .report, .ignore]
      | .unitCheck => [.latch, .timed, .report]
      | .keyLapsed | .storeFail => [.latch]
      | .watchdog => [.latch, .report, .ignore]
      | .cueOverrun | .access => [.report, .ignore]
    policyAllowed k p = true ↔ p ∈ allowed) ∧
  (∀ b : Byte, policyOf b = if b = 0#8 then some .ignore else if b = 1#8 then some .report else if b = 2#8 then some .timed
    else if b = 3#8 then some .latch else none)

/-- BOOTH_FAULT_N is low exactly while the output condition is not OPEN or a kind whose flag is set has its line flag set (R155),
the output condition being the function of the latched set and the countdown that R148 gives; ATTN_A and ATTN_B are high
exactly while an event pending and enabled is routed to them (R162). -/
def Obligations.OutputPinsFollowTheirCauses : Prop :=
  (∀ s : State,
    (boothFaultLow s = true ↔
      outputCondition s ≠ .openOutput ∨ ∃ k, (faultOf s k).flag = true ∧ (policyOfKind s k).lineFlag = true) ∧
    (outputCondition s = .blankLatched ↔ ∃ k, (faultOf s k).latched = true) ∧
    (outputCondition s = .blankTimed ↔ (∀ k, (faultOf s k).latched = false) ∧ 0 < s.sup.countdown) ∧
    (attnA s = true ↔ ∃ e, e < 7 ∧ s.link.eventPending.getLsbD e = true ∧ s.link.eventEnables.getLsbD e = true ∧
      s.link.eventSelects.getLsbD e = false) ∧
    (attnB s = true ↔ ∃ e, e < 7 ∧ s.link.eventPending.getLsbD e = true ∧ s.link.eventEnables.getLsbD e = true ∧
      s.link.eventSelects.getLsbD e = true)) ∧
  (∀ (s : State) (k : FaultKind),
    faultOf s k = s.sup.faults[faultIndex k] ∧ policyOfKind s k = s.sup.policies[faultIndex k])

/-! ### Tables and masks -/

/-- SET_MUTE, LANE_ENABLE, ACK_EVENTS and WRITE_EVENTS (R89, R118, R162, R163), accepted in every state with OK: in RUNNING a mute
waits for the next advance; each named event's pending flag clears and no other; a write of EVENTS stores no pending flag. -/
def Obligations.MaskCommandsAreTaken : Prop :=
  ∀ s : State, Linked s →
    (∀ m, exec (.setMute m) s = .next { s with
      sound := { s.sound with pendingMask := m, activeMask := if s.ctl.state = .running then s.sound.activeMask else m }
      link := answered s.link .ok 0
      out := { acked := 8 } }) ∧
    (∀ b : Byte, exec (.laneEnable b) s = .next { s with
      overlay := { s.overlay with enableA := b.getLsbD 0, enableB := b.getLsbD 1 }
      link := answered s.link .ok 0
      out := { acked := 7 } }) ∧
    (∀ m : Byte, ∃ p : BitVec 7,
      exec (.ackEvents m) s =
        .next { s with link := { answered s.link .ok 0 with eventPending := p }, out := { acked := 7 } } ∧
      ∀ e, e < 7 → p.getLsbD e = (s.link.eventPending.getLsbD e && !m.getLsbD e)) ∧
    (∀ en sel : Byte, ∃ p q : BitVec 7,
      exec (.writeEvents en sel) s = .next { s with
        link := { answered s.link .ok 0 with eventEnables := p, eventSelects := q }, out := { acked := 10 } } ∧
      ∀ e, e < 7 → p.getLsbD e = en.getLsbD e ∧ q.getLsbD e = sel.getLsbD e)

/-- REGION_RECORD (R3, R6, R7): check 1 always, checks 2 to 7 on a VALID record, in order, each with its refusal, nothing changed; else
the entry is replaced whole, a kind outside the six stored as OPEN and the fields its kind does not have as R3 gives.  The codes of the
kinds are Table 11-13's; the functions that Safety.lean's law of the table speaks through are written out.  A plane that a booth reset of
this microsecond took away at the index is forgotten (the model's own mark, log 29). -/
def Obligations.RegionRecordFollowsItsChecks : Prop :=
  (∀ (i : Fin 24) (w : RegionWrite) (s : State), Linked s →
    let kind := (regionKindOf w.kind).getD .openMemory
    let essence := kind = .pictureEssence ∨ kind = .soundEssence
    let picture := kind = .frame ∨ kind = .plane
    let base := w.base.toNat
    let size := w.size.toNat
    let entry : RegionEntry :=
      { valid := w.valid, base := base, size := size, kind := kind, writers := w.writers
        reel := if essence then w.reel.toNat else 0
        stride := if kind = .pictureEssence then w.stride.toNat else 0
        width := if picture then w.width.toNat else 0
        height := if picture then w.height.toNat else 0
        pitch := if picture then w.pitch.toNat else 0
        range := if kind = .frame ∧ w.limited = true then .limited else .full
        isProtected := kind = .frame && w.isProtected }
    exec (.regionRecord i w) s = .next (acknowledging 38 (judged s
      { s with
        path := { s.path with
          regions := vput s.path.regions i entry, planesLost := s.path.planesLost.filter fun j => j ≠ i }
        link := answered s.link .ok 0
        out := {} }
      [⟨s.ctl.state = .empty || s.ctl.state = .loaded, .refusedState, 1⟩, ⟨!w.valid || w.kind.toNat ≤ 5, .refusedValue, 2⟩,
       ⟨!w.valid || 1 ≤ size && size ≤ 268435456 && base + size ≤ 17179869184, .refusedValue, 3⟩,
       ⟨!w.valid || !essence || w.reel.toNat ≤ 15, .refusedValue, 4⟩,
       ⟨!w.valid || kind ≠ .pictureEssence || 2 ≤ w.stride.toNat && w.stride.toNat ≤ 65535, .refusedValue, 5⟩,
       ⟨!w.valid || !picture ||
          16 ≤ w.width.toNat && w.width.toNat ≤ 4096 && w.width.toNat % 16 = 0 && 1 ≤ w.height.toNat &&
            w.height.toNat ≤ 2160 && w.width.toNat / 16 ≤ w.pitch.toNat && w.pitch.toNat ≤ 65535 &&
            w.height.toNat * w.pitch.toNat ≤ size, .refusedValue, 6⟩,
       ⟨!w.valid || (List.finRange 24).all fun j =>
          j = i || !s.path.regions[j].valid || s.path.regions[j].base + s.path.regions[j].size ≤ base ||
            base + size ≤ s.path.regions[j].base, .refusedValue, 7⟩]))) ∧
  (∀ b : Byte, regionKindOf b =
    [RegionKind.openMemory, .pictureEssence, .soundEssence, .frame, .plane, .cue][b.toNat]?) ∧
  (∀ k : RegionKind, (isEssence k = true ↔ k = .pictureEssence ∨ k = .soundEssence) ∧
    (hasGeometry k = true ↔ k = .frame ∨ k = .plane)) ∧
  (∀ e f : RegionEntry,
    (rangesMeet e f = true ↔ e.base < f.base + f.size ∧ f.base < e.base + e.size) ∧
    (geometryOk e = true ↔ 16 ≤ e.width ∧ e.width ≤ 4096 ∧ e.width % 16 = 0 ∧ 1 ≤ e.height ∧ e.height ≤ 2160 ∧
      e.width / 16 ≤ e.pitch ∧ e.pitch ≤ 65535 ∧ e.height * e.pitch ≤ e.size))

/-- WRITE_FILTER, WRITE_DEFAULT_ACTION, WRITE_LOW_MARK and WRITE_CLOCK (R21, R104, R111): out of range, or for the CLOCK record in
RUNNING and HELD, refused with nothing changed; else the fields they carry are stored and no other.  The codes of the actions are Table
11-17's.  Which refusal a CLOCK write gets that is out of range and comes in RUNNING or HELD is the model's choice (log 31). -/
def Obligations.ParameterWritesStoreTheirFields : Prop :=
  (∀ s : State, Linked s →
    (∀ i w, exec (.writeFilter i w) s = .next (acknowledging 14 (judged s
      { s with
        cues := { s.cues with
          filters := vput s.cues.filters i
            ({ enabled := w.enabled, matchValue := w.matchValue, mask := w.mask,
               action := (filterActionOf w.action).getD .laneA }) }
        link := answered s.link .ok 0
        out := {} }
      [⟨w.action.toNat ≤ 2, .refusedValue, 2⟩]))) ∧
    (∀ b, exec (.writeDefaultAction b) s = .next (acknowledging 30 (judged s
      { s with
        cues := { s.cues with defaultAction := (filterActionOf b).getD .laneA }, link := answered s.link .ok 0, out := {} }
      [⟨b.toNat ≤ 2, .refusedValue, 2⟩]))) ∧
    (∀ lane b, exec (.writeLowMark lane b) s = .next (acknowledging 54 (judged s
      { s with
        cues := match lane with
          | .a => { s.cues with laneA := { s.cues.laneA with lowMark := b.toNat } }
          | .b => { s.cues with laneB := { s.cues.laneB with lowMark := b.toNat } }
        link := answered s.link .ok 0
        out := {} }
      [⟨b.toNat ≤ 15, .refusedValue, 2⟩]))) ∧
    (∀ w l, exec (.writeClock w l) s = .next (acknowledging 70 (judged s
      { s with
        clock := { s.clock with window := w.toNat, lossLimit := l.toNat }, link := answered s.link .ok 0, out := {} }
      [⟨s.ctl.state ≠ .running && s.ctl.state ≠ .held, .refusedState, 0⟩,
       ⟨100 ≤ w.toNat && w.toNat ≤ 4000 && 1 ≤ l.toNat && l.toNat ≤ 15, .refusedValue, 0⟩])))) ∧
  (∀ b : Byte, filterActionOf b = [FilterAction.laneA, .laneB, .reject][b.toNat]?)

/-! ### The link -/

/-- READ_RECORD and READ_TRANSFER (R137, R159, R160): a record in range becomes the snapshot, of the read length Table 11-1 gives, and
one out of range BAD_INDEX with no bytes; nothing else changes.  A transfer delivers result, length, bytes and CRC-8, then
255, and leaves the snapshot whole.  The bytes are the record's fields as its table lays them out, which `recordFields`
(Safety.lean) spells row by row, most significant byte first (R165, Tables 11-10 and 11-12 to 11-22); no record
carries key material: the content keys may be any (R58, R59).  The port acknowledges the request, and of the transfer its own address byte
alone (R157); the result codes are Table 11-3's, the read address byte is the part's with bit 0 set, and the CRC-8 is R101's. -/
def Obligations.ReadsTakeAndDeliverSnapshots : Prop :=
  (∀ s : State, Linked s →
    (∀ (t : LinkTable) (i : Byte),
      let outside := tableIndexes t ≤ i.toNat ∨ (t = .log ∧ s.count.ram.log.length ≤ i.toNat)
      (outside → exec (.readRecord t i) s =
        .next { s with link := { s.link with snapshot := { result := .badIndex, bytes := [] } }, out := { acked := 6 } }) ∧
      (¬ outside → ∃ bytes, recordBytes s t i.toNat = some bytes ∧ bytes = laid (recordFields s t i.toNat) ∧
        exec (.readRecord t i) s =
          .next { s with link := { s.link with snapshot := { result := .ok, bytes := bytes } }, out := { acked := 6 } } ∧
        bytes.length = match t with
          | .ident => 16 | .region => 32 | .key => 40 | .licence => 48
          | .showing => 16 + 8 * (s.ctl.record.map (·.reels.length)).getD 0
          | .filter => if i.toNat < 8 then 8 else if i.toNat = 8 then 24 else 48
          | .policy => 8 | .status => 200 | .log => 31 | .events => 4 | .clock => 64 | .link => 4)) ∧
    (∀ n : Nat,
      let head := [resultCode s.link.snapshot.result, BitVec.ofNat 8 s.link.snapshot.bytes.length] ++ s.link.snapshot.bytes
      let whole := head ++ [crc8 (readAddressByte s :: head)]
      exec (.readTransfer n) s = .next { s with out := { link := (whole ++ List.replicate n 255#8).take n, acked := 1 } })) ∧
  (∀ (s : State) (g : BitVec 128 → BitVec 128) (t : LinkTable) (i : Nat),
    recordBytes { s with keys := Vector.ofFn fun j => withMaterial g s.keys[j] } t i = recordBytes s t i) ∧
  (∀ r : LinkResult, (resultCode r).toNat = match r with
    | .ok => 0 | .badCrc => 1 | .badTable => 2 | .badIndex => 3 | .badLength => 4 | .refusedState => 5 | .refusedValue => 6
    | .busy => 7 | .keyWrap => 8 | .storeFailed => 9) ∧
  (∀ s : State, (readAddressByte s).toNat = 2 * (88 + s.power.straps.toNat) + 1) ∧
  (∀ bytes : List Byte,
    let shift (r : Byte) : Byte := if r.getLsbD 7 = true then (r <<< 1) ^^^ 7#8 else r <<< 1
    crc8 bytes = bytes.foldl (fun r b => shift^[8] (r ^^^ b)) 0#8) ∧
  (∀ who : Originator, originatorTag who = match who with
    | .proc => 0 | .ingest => 1 | .decode => 2 | .scan => 3 | .audio => 4 | .aux0 => 5 | .aux1 => 6 | .aux2 => 7)

/-- R164: the IDENT record cannot be written, and a read of it gives in every state the part code 640, revision 1, the strap address
in use, from 88 to 91, and the capacities 24, 16, 8, 64, 2, 16, 8 and 9. -/
def Obligations.IdentNamesThePart : Prop :=
  (∀ s : State, Linked s → ∃ a : Byte, a.toNat = 88 + s.power.straps.toNat ∧ 88 ≤ a.toNat ∧ a.toNat ≤ 91 ∧
    exec (.readRecord .ident 0#8) s = .next { s with
      link := { s.link with snapshot := {
        result := .ok
        bytes := [2#8, 128#8, 1#8, a, 24#8, 16#8, 8#8, 64#8, 2#8, 16#8, 8#8, 9#8, 0#8, 0#8, 0#8, 0#8] } }
      out := { acked := 6 } }) ∧
  ∀ (index : Byte) (data : List Byte), linkRefusal 1#8 0#8 index data = some .badTable

/-- BAD_CRC, BAD_LENGTH_TRUNCATED and UNRECOGNISED_PACKET (R157 to R160): the result each leaves, with detail and delta 0 and nothing
else changed; a READ RECORD refused by dispatch leaves a snapshot of its code instead, and an unknown op byte a last result
(DEDUCED, log 26).  R158's four checks, for WRITE RECORD, READ RECORD and COMMAND, row by row of Tables 11-1 and 11-2: the op and
the table or command, the index, the length, a SHOW record's taken from the reel count in its byte 15. With BRST_N low, and
without supply (DEDUCED, log 15), no transfer is received at all; the one that a booth reset cut off is discarded at its end,
with no result and nothing else changed (log 14).  The port acknowledges the bytes of a packet to its CRC byte, of a truncated one every
byte, and of a transfer it does not receive none (R157); bytes to another part, or that check, are no such event (log 22). -/
def Obligations.RefusedPacketsLeaveTheirResult : Prop :=
  (∀ s : State, Linked s →
    (∀ p n, crcFails p = true → p.head? = some (writeAddressByte s) → p[4]? = some n →
      exec (.badCrc p) s = .next (acknowledging (6 + n.toNat) (refusedAs s .badCrc 0))) ∧
    (∀ p, endsEarly p = true → p.head? = some (writeAddressByte s) →
      exec (.badLengthTruncated p) s = .next (acknowledging p.length (refusedAs s .badLength 0))) ∧
    (∀ op t i d r, linkRefusal op t i d = some r →
      (op ≠ 2#8 → exec (.unrecognisedPacket op t i d) s = .next (acknowledging (6 + d.length) (refusedAs s r 0))) ∧
      (op = 2#8 → exec (.unrecognisedPacket op t i d) s =
        .next { s with link := { s.link with snapshot := { result := r, bytes := [] } }, out := { acked := 6 + d.length } }))) ∧
  (∀ (op t i : Byte) (d : List Byte),
    (op.toNat = 0 ∨ 3 < op.toNat → linkRefusal op t i d = some .badTable) ∧
    (op = 1#8 ∨ op = 2#8 → 11 < t.toNat → linkRefusal op t i d = some .badTable) ∧
    (op = 3#8 → t.toNat = 0 ∨ 19 < t.toNat → linkRefusal op t i d = some .badTable) ∧
    (∀ table, tableOf t = some table →
      (op = 1#8 → tableWritable table = false → linkRefusal op t i d = some .badTable) ∧
      (op = 1#8 → tableWritable table = true → tableIndexes table ≤ i.toNat → linkRefusal op t i d = some .badIndex) ∧
      (op = 2#8 → tableIndexes table ≤ i.toNat → linkRefusal op t i d = some .badIndex) ∧
      (op = 2#8 → i.toNat < tableIndexes table → d ≠ [] → linkRefusal op t i d = some .badLength) ∧
      (op = 2#8 → i.toNat < tableIndexes table → d = [] → linkRefusal op t i d = none) ∧
      (op = 1#8 → tableWritable table = true → i.toNat < tableIndexes table →
        let fits : Prop := match table with
          | .region => d.length = 32
          | .key | .licence => d.length = 52
          | .showing => ∃ count, d[15]? = some count ∧ d.length = 16 + 8 * count.toNat
          | .filter => d.length = if i.toNat < 8 then 8 else if i.toNat = 8 then 24 else 48
          | .policy => d.length = 8
          | .events => d.length = 4
          | .clock => d.length = 64
          | .ident | .status | .log | .link => False
        (¬ fits → linkRefusal op t i d = some .badLength) ∧ (fits → linkRefusal op t i d = none))) ∧
    (∀ row ∈ [(1, 1, 0), (2, 1, 0), (3, 1, 0), (4, 1, 0), (5, 1, 0), (6, 1, 0), (7, 1, 0), (8, 1, 2), (9, 1, 0), (10, 1, 2),
        (11, 1, 1), (12, 16, 0), (13, 8, 0), (14, 1, 8), (15, 1, 4), (16, 1, 2), (17, 1, 2), (18, 1, 1), (19, 1, 0)],
      op = 3#8 → t.toNat = row.1 →
        (row.2.1 ≤ i.toNat → linkRefusal op t i d = some .badIndex) ∧
        (i.toNat < row.2.1 → d.length ≠ row.2.2 → linkRefusal op t i d = some .badLength) ∧
        (i.toNat < row.2.1 → d.length = row.2.2 → linkRefusal op t i d = none))) ∧
  (∀ t : Byte, tableOf t = [LinkTable.ident, .region, .key, .licence, .showing, .filter, .policy, .status, .log, .events, .clock,
    .link][t.toNat]?) ∧
  (∀ table : LinkTable, (tableWritable table = true ↔ table ∉ [LinkTable.ident, .status, .log, .link]) ∧
    tableIndexes table = match table with
      | .region => 24 | .key => 16 | .licence => 8 | .filter => 11 | .policy => 9 | .log => 64
      | .ident | .showing | .status | .events | .clock | .link => 1) ∧
  (∀ (c : Instr) (s : State),
    encodeRequest c ≠ none ∨ (∃ n, c = .readTransfer n) ∨ (∃ p, c = .badCrc p) ∨ (∃ p, c = .badLengthTruncated p) ∨
      (∃ op t i d, c = .unrecognisedPacket op t i d) →
    (s.power.on = false ∨ s.power.brstLow = true ∨ s.link.cutOff = true →
      exec c s = .next { s with link := { s.link with cutOff := false }, out := {} })) ∧
  (∀ s : State, (writeAddressByte s).toNat = 2 * (88 + s.power.straps.toNat)) ∧
  (∀ p : List Byte,
    (crcFails p = true ↔ ∃ n x, p[4]? = some n ∧ p[5 + n.toNat]? = some x ∧ crc8 (p.take (5 + n.toNat)) ≠ x) ∧
    (endsEarly p = true ↔ p ≠ [] ∧ ∀ n, p[4]? = some n → p.length ≤ 5 + n.toNat))

/-- Every well-formed request of the link, written as a packet to the part's own address and read again, is itself, with every operand
at every value; bytes after the CRC byte change nothing (R157, R158, R165).  A transfer whose first byte is not the part's
address with a write's 0 below it is ignored (R157).  The packet of each is laid out as its table says (`requestFields`, Safety.lean).
The port acknowledges every byte of the packet and none after it, of a part of one what there is, its own address byte of a read, and
nothing of a transfer to another address; and a request carried out has had its whole packet acknowledged (R157). -/
def Obligations.PacketsReadBack : Prop :=
  (∀ (straps : BitVec 2) (c : Instr) (bytes extra : List Byte), c.wellFormed = true → encodePacket straps c = some bytes →
    decodePacket straps (bytes ++ extra) = .request c) ∧
  (∀ (straps : BitVec 2) (first : Byte) (rest : List Byte), first.toNat ≠ 2 * (88 + straps.toNat) →
    decodePacket straps (first :: rest) = .ignored) ∧
  (∀ c : Instr, encodeRequest c = (requestFields c).map fun (op, table, index, data) => (op, table, index, laid data)) ∧
  (∀ (straps : BitVec 2) (c : Instr) (bytes : List Byte), c.wellFormed = true → encodePacket straps c = some bytes →
    (∀ extra, ackedBytes straps (bytes ++ extra) = bytes.length) ∧
    (∀ n, n ≤ bytes.length → ackedBytes straps (bytes.take n) = n) ∧
    ∀ s : State, Linked s → s.power.straps = straps → ∃ t, exec c s = .next t ∧ t.out.acked = bytes.length) ∧
  (∀ (straps : BitVec 2) (first : Byte) (rest : List Byte), first.toNat ≠ 2 * (88 + straps.toNat) →
    ackedBytes straps (first :: rest) = if first.toNat = 2 * (88 + straps.toNat) + 1 then 1 else 0)

/-! ### Resets and supply -/

/-- RESET, BOOTH_RESET and BRST_N_RELEASE (R5, R17, R35, R41, R59, R66, R86, R99, R116, R127, R142, R156, R159 to R161, R163): every block
at its booth-reset values; transactions in flight, the timebase, the Secure Clock, the store and a write in flight kept; the
RAM copy reloaded when the store is READY, owed when BUSY, kept when FAILED; the two differ in the level of BRST_N and in
the transfer that BRST_N's booth reset cuts off, of which the port has acknowledged what the operand says (R157, log 14).  Without supply, or with BRST_N low already, BOOTH_RESET sets
the level alone, and RESET keeps it (the model's choice, log 15, log 17); the marks of the microsecond for edges stay (log 25), the
commit's goes (log 30), and the planes that the reset takes away are marked for the microsecond (log 29). -/
def Obligations.BoothResetKeepsWhatItMust : Prop :=
  ∀ s : State,
    let high := s.count.status = .ready ∧ 48 ≤ s.count.store.log.length
    let u : State := { s with
      path := {
        reads := s.path.reads, writes := s.path.writes, nextTxn := s.path.nextTxn
        planesLost := (List.finRange 24).filter fun i =>
          (s.path.regions[i].valid && s.path.regions[i].kind = .plane) || s.path.planesLost.contains i }
      clock := { timebase := s.clock.timebase, edgeSeen := s.clock.edgeSeen }
      ctl := {}
      keys := Vector.replicate 16 .empty
      unpack := {}
      sound := {}
      cues := {}
      overlay := {}
      count := { s.count with
        reserved := none
        blanked := 0
        commitSeen := false
        ram := if s.count.status = .ready then s.count.store else s.count.ram
        reloadDue := s.count.reloadDue || (storeCode s.count.status == 1#8) }
      sup := { watchdog := { tickSeen := s.sup.watchdog.tickSeen } }
      link := { eventPending := if high then 8#7 else 0#7 }
      out := {} }
    (Linked s → exec .reset s = .next { u with out := { acked := 6 } }) ∧
    (∀ midTransfer : Option Nat,
      (s.power.on = true → s.power.brstLow = false → exec (.boothReset midTransfer) s = .next { u with
        power := { s.power with brstLow := true }, link := { u.link with cutOff := midTransfer.isSome }
        out := { acked := midTransfer.getD 0 } }) ∧
      (s.power.on = false ∨ s.power.brstLow = true →
        exec (.boothReset midTransfer) s = .next { s with power := { s.power with brstLow := true }, out := {} })) ∧
    exec .brstNRelease s = .next { s with power := { s.power with brstLow := false }, out := {} }

/-- POWER_ON_RESET and LOSS_OF_POWER (R18, R41, R59, R66, R141, R156, R157, R163): every field at its power-on value; the store's contents
kept, the RAM copy taken from it when readable and empty when not; the Secure Clock kept when its supply was held by the
operand and by the recorded fact both (DEDUCED, log 16), the level of BRST_N kept (the model's choice, log 17); the loss
stops the part (DEDUCED, log 15) and changes no other state. -/
def Obligations.PowerOnReadsTheStore : Prop :=
  ∀ s : State,
    (∀ (held readable : Bool) (straps : BitVec 2), exec (.powerOnReset held readable straps) s = .next
      { pending := s.pending
        power := { on := true, brstLow := s.power.brstLow, backupHeld := true, straps := straps }
        secure := if held = true ∧ s.power.backupHeld = true then s.secure else {}
        count := {
          store := s.count.store, ram := if readable then s.count.store else {}
          status := if readable then .ready else .failed }
        link := { eventPending := if readable = true ∧ 48 ≤ s.count.store.log.length then 8#7 else 0#7 }
        free := s.free }) ∧
    (∀ fails : Bool, exec (.lossOfPower fails) s = .next { s with
      power := { s.power with on := false, backupHeld := s.power.backupHeld && !fails }, out := {} })

/-! ### Laws that every step keeps -/

/-- Every step keeps the Region Table lawful, no two VALID entries sharing a line (R3, R4, R6), and every parameter in its range. -/
def Obligations.StepsKeepTheTables : Prop :=
  ∀ s t : State, step s = .next t → (RegionsOk s → RegionsOk t) ∧ (ParametersOk s → ParametersOk t)

/-- Every step keeps the Secure Clock's law: the trim sum within 360 seconds either way, the year open for less than its length, and
while TIME_INVALID no time, no year and no key (R65, R67, R68, R69). -/
def Obligations.StepsKeepTheSecureClock : Prop :=
  ∀ s t : State, step s = .next t → SecureOk s → SecureOk t

/-- Every step keeps R106 in both lanes, and at most one unit-check context to a unit, expecting a line of it (R80, R83). -/
def Obligations.StepsKeepLanesAndContexts : Prop :=
  ∀ s t : State, step s = .next t → (LanesOk s → LanesOk t) ∧ (ContextsOk s → ContextsOk t)

/-- Every step keeps the show's law, p at most T and T exactly in ENDED (R41); the named key slots of a full show IN_USE or LAPSED
(R44); and the Supervisor's copy of each condition equal to the detector's (R145).  PrimeFollowsItsChecks writes out which slots a record
names; a slot is held when it is IN_USE or LAPSED. -/
def Obligations.StepsKeepTheShow : Prop :=
  (∀ s t : State, step s = .next t → (ShowOk s → ShowOk t) ∧ (KeysOk s → KeysOk t) ∧ (CopiesOk s → CopiesOk t)) ∧
  (∀ x : KeySlot, isHeld x = true ↔ (∃ f m, x = .inUse f m) ∨ ∃ f m grace, x = .lapsed f m grace)

/-- Every step keeps the counts: remaining + used = granted, at most 64 log records in strictly rising order until the sequence counter
stops, no more records of a slot than its used count (R129, R136, R137), in the RAM copy and in the store, and a showing left
for a reserved slot (R135). -/
def Obligations.StepsKeepTheCounts : Prop :=
  (∀ s t : State, step s = .next t → ShowOk s → CountsOk s → CountsOk t) ∧
  (∀ x : LicenceSlot, (x = .empty → usedOf x = 0) ∧ ∀ l, licenceOf x = some l → usedOf x = l.used) ∧
  (∀ (w : StoreWrite) (m : CountImage), programWrite w m = match w with
    | .slot i image => { m with licences := vput m.licences i image }
    | .log image => { m with log := image }
    | .screen image => { m with screenId := image }
    | .commit slots log sequence =>
      { m with licences := slots.foldl (fun v p => vput v p.1 p.2) m.licences, log := log, sequence := sequence })
end

