-- ==== Sys2Proof/Laws/State.lean ====
section
/-! SUPPORT. Laws/State.lean: one lemma for each field after each update of State, true by rfl. -/

namespace Sys2Proof.Machine

/-! ### setPending -/

@[simp] theorem setPending_pending (s : State) (x) : (s.setPending x).pending = x := rfl
@[simp] theorem setPending_power (s : State) (x) : (s.setPending x).power = s.power := rfl
@[simp] theorem setPending_path (s : State) (x) : (s.setPending x).path = s.path := rfl
@[simp] theorem setPending_clock (s : State) (x) : (s.setPending x).clock = s.clock := rfl
@[simp] theorem setPending_ctl (s : State) (x) : (s.setPending x).ctl = s.ctl := rfl
@[simp] theorem setPending_keys (s : State) (x) : (s.setPending x).keys = s.keys := rfl
@[simp] theorem setPending_secure (s : State) (x) : (s.setPending x).secure = s.secure := rfl
@[simp] theorem setPending_unpack (s : State) (x) : (s.setPending x).unpack = s.unpack := rfl
@[simp] theorem setPending_sound (s : State) (x) : (s.setPending x).sound = s.sound := rfl
@[simp] theorem setPending_cues (s : State) (x) : (s.setPending x).cues = s.cues := rfl
@[simp] theorem setPending_overlay (s : State) (x) : (s.setPending x).overlay = s.overlay := rfl
@[simp] theorem setPending_count (s : State) (x) : (s.setPending x).count = s.count := rfl
@[simp] theorem setPending_sup (s : State) (x) : (s.setPending x).sup = s.sup := rfl
@[simp] theorem setPending_link (s : State) (x) : (s.setPending x).link = s.link := rfl
@[simp] theorem setPending_free (s : State) (x) : (s.setPending x).free = s.free := rfl
@[simp] theorem setPending_out (s : State) (x) : (s.setPending x).out = s.out := rfl

/-! ### setPower -/

@[simp] theorem setPower_pending (s : State) (x) : (s.setPower x).pending = s.pending := rfl
@[simp] theorem setPower_power (s : State) (x) : (s.setPower x).power = x := rfl
@[simp] theorem setPower_path (s : State) (x) : (s.setPower x).path = s.path := rfl
@[simp] theorem setPower_clock (s : State) (x) : (s.setPower x).clock = s.clock := rfl
@[simp] theorem setPower_ctl (s : State) (x) : (s.setPower x).ctl = s.ctl := rfl
@[simp] theorem setPower_keys (s : State) (x) : (s.setPower x).keys = s.keys := rfl
@[simp] theorem setPower_secure (s : State) (x) : (s.setPower x).secure = s.secure := rfl
@[simp] theorem setPower_unpack (s : State) (x) : (s.setPower x).unpack = s.unpack := rfl
@[simp] theorem setPower_sound (s : State) (x) : (s.setPower x).sound = s.sound := rfl
@[simp] theorem setPower_cues (s : State) (x) : (s.setPower x).cues = s.cues := rfl
@[simp] theorem setPower_overlay (s : State) (x) : (s.setPower x).overlay = s.overlay := rfl
@[simp] theorem setPower_count (s : State) (x) : (s.setPower x).count = s.count := rfl
@[simp] theorem setPower_sup (s : State) (x) : (s.setPower x).sup = s.sup := rfl
@[simp] theorem setPower_link (s : State) (x) : (s.setPower x).link = s.link := rfl
@[simp] theorem setPower_free (s : State) (x) : (s.setPower x).free = s.free := rfl
@[simp] theorem setPower_out (s : State) (x) : (s.setPower x).out = s.out := rfl

/-! ### setPath -/

@[simp] theorem setPath_pending (s : State) (x) : (s.setPath x).pending = s.pending := rfl
@[simp] theorem setPath_power (s : State) (x) : (s.setPath x).power = s.power := rfl
@[simp] theorem setPath_path (s : State) (x) : (s.setPath x).path = x := rfl
@[simp] theorem setPath_clock (s : State) (x) : (s.setPath x).clock = s.clock := rfl
@[simp] theorem setPath_ctl (s : State) (x) : (s.setPath x).ctl = s.ctl := rfl
@[simp] theorem setPath_keys (s : State) (x) : (s.setPath x).keys = s.keys := rfl
@[simp] theorem setPath_secure (s : State) (x) : (s.setPath x).secure = s.secure := rfl
@[simp] theorem setPath_unpack (s : State) (x) : (s.setPath x).unpack = s.unpack := rfl
@[simp] theorem setPath_sound (s : State) (x) : (s.setPath x).sound = s.sound := rfl
@[simp] theorem setPath_cues (s : State) (x) : (s.setPath x).cues = s.cues := rfl
@[simp] theorem setPath_overlay (s : State) (x) : (s.setPath x).overlay = s.overlay := rfl
@[simp] theorem setPath_count (s : State) (x) : (s.setPath x).count = s.count := rfl
@[simp] theorem setPath_sup (s : State) (x) : (s.setPath x).sup = s.sup := rfl
@[simp] theorem setPath_link (s : State) (x) : (s.setPath x).link = s.link := rfl
@[simp] theorem setPath_free (s : State) (x) : (s.setPath x).free = s.free := rfl
@[simp] theorem setPath_out (s : State) (x) : (s.setPath x).out = s.out := rfl

/-! ### setClock -/

@[simp] theorem setClock_pending (s : State) (x) : (s.setClock x).pending = s.pending := rfl
@[simp] theorem setClock_power (s : State) (x) : (s.setClock x).power = s.power := rfl
@[simp] theorem setClock_path (s : State) (x) : (s.setClock x).path = s.path := rfl
@[simp] theorem setClock_clock (s : State) (x) : (s.setClock x).clock = x := rfl
@[simp] theorem setClock_ctl (s : State) (x) : (s.setClock x).ctl = s.ctl := rfl
@[simp] theorem setClock_keys (s : State) (x) : (s.setClock x).keys = s.keys := rfl
@[simp] theorem setClock_secure (s : State) (x) : (s.setClock x).secure = s.secure := rfl
@[simp] theorem setClock_unpack (s : State) (x) : (s.setClock x).unpack = s.unpack := rfl
@[simp] theorem setClock_sound (s : State) (x) : (s.setClock x).sound = s.sound := rfl
@[simp] theorem setClock_cues (s : State) (x) : (s.setClock x).cues = s.cues := rfl
@[simp] theorem setClock_overlay (s : State) (x) : (s.setClock x).overlay = s.overlay := rfl
@[simp] theorem setClock_count (s : State) (x) : (s.setClock x).count = s.count := rfl
@[simp] theorem setClock_sup (s : State) (x) : (s.setClock x).sup = s.sup := rfl
@[simp] theorem setClock_link (s : State) (x) : (s.setClock x).link = s.link := rfl
@[simp] theorem setClock_free (s : State) (x) : (s.setClock x).free = s.free := rfl
@[simp] theorem setClock_out (s : State) (x) : (s.setClock x).out = s.out := rfl

/-! ### setCtl -/

@[simp] theorem setCtl_pending (s : State) (x) : (s.setCtl x).pending = s.pending := rfl
@[simp] theorem setCtl_power (s : State) (x) : (s.setCtl x).power = s.power := rfl
@[simp] theorem setCtl_path (s : State) (x) : (s.setCtl x).path = s.path := rfl
@[simp] theorem setCtl_clock (s : State) (x) : (s.setCtl x).clock = s.clock := rfl
@[simp] theorem setCtl_ctl (s : State) (x) : (s.setCtl x).ctl = x := rfl
@[simp] theorem setCtl_keys (s : State) (x) : (s.setCtl x).keys = s.keys := rfl
@[simp] theorem setCtl_secure (s : State) (x) : (s.setCtl x).secure = s.secure := rfl
@[simp] theorem setCtl_unpack (s : State) (x) : (s.setCtl x).unpack = s.unpack := rfl
@[simp] theorem setCtl_sound (s : State) (x) : (s.setCtl x).sound = s.sound := rfl
@[simp] theorem setCtl_cues (s : State) (x) : (s.setCtl x).cues = s.cues := rfl
@[simp] theorem setCtl_overlay (s : State) (x) : (s.setCtl x).overlay = s.overlay := rfl
@[simp] theorem setCtl_count (s : State) (x) : (s.setCtl x).count = s.count := rfl
@[simp] theorem setCtl_sup (s : State) (x) : (s.setCtl x).sup = s.sup := rfl
@[simp] theorem setCtl_link (s : State) (x) : (s.setCtl x).link = s.link := rfl
@[simp] theorem setCtl_free (s : State) (x) : (s.setCtl x).free = s.free := rfl
@[simp] theorem setCtl_out (s : State) (x) : (s.setCtl x).out = s.out := rfl

/-! ### setKeys -/

@[simp] theorem setKeys_pending (s : State) (x) : (s.setKeys x).pending = s.pending := rfl
@[simp] theorem setKeys_power (s : State) (x) : (s.setKeys x).power = s.power := rfl
@[simp] theorem setKeys_path (s : State) (x) : (s.setKeys x).path = s.path := rfl
@[simp] theorem setKeys_clock (s : State) (x) : (s.setKeys x).clock = s.clock := rfl
@[simp] theorem setKeys_ctl (s : State) (x) : (s.setKeys x).ctl = s.ctl := rfl
@[simp] theorem setKeys_keys (s : State) (x) : (s.setKeys x).keys = x := rfl
@[simp] theorem setKeys_secure (s : State) (x) : (s.setKeys x).secure = s.secure := rfl
@[simp] theorem setKeys_unpack (s : State) (x) : (s.setKeys x).unpack = s.unpack := rfl
@[simp] theorem setKeys_sound (s : State) (x) : (s.setKeys x).sound = s.sound := rfl
@[simp] theorem setKeys_cues (s : State) (x) : (s.setKeys x).cues = s.cues := rfl
@[simp] theorem setKeys_overlay (s : State) (x) : (s.setKeys x).overlay = s.overlay := rfl
@[simp] theorem setKeys_count (s : State) (x) : (s.setKeys x).count = s.count := rfl
@[simp] theorem setKeys_sup (s : State) (x) : (s.setKeys x).sup = s.sup := rfl
@[simp] theorem setKeys_link (s : State) (x) : (s.setKeys x).link = s.link := rfl
@[simp] theorem setKeys_free (s : State) (x) : (s.setKeys x).free = s.free := rfl
@[simp] theorem setKeys_out (s : State) (x) : (s.setKeys x).out = s.out := rfl

/-! ### setSecure -/

@[simp] theorem setSecure_pending (s : State) (x) : (s.setSecure x).pending = s.pending := rfl
@[simp] theorem setSecure_power (s : State) (x) : (s.setSecure x).power = s.power := rfl
@[simp] theorem setSecure_path (s : State) (x) : (s.setSecure x).path = s.path := rfl
@[simp] theorem setSecure_clock (s : State) (x) : (s.setSecure x).clock = s.clock := rfl
@[simp] theorem setSecure_ctl (s : State) (x) : (s.setSecure x).ctl = s.ctl := rfl
@[simp] theorem setSecure_keys (s : State) (x) : (s.setSecure x).keys = s.keys := rfl
@[simp] theorem setSecure_secure (s : State) (x) : (s.setSecure x).secure = x := rfl
@[simp] theorem setSecure_unpack (s : State) (x) : (s.setSecure x).unpack = s.unpack := rfl
@[simp] theorem setSecure_sound (s : State) (x) : (s.setSecure x).sound = s.sound := rfl
@[simp] theorem setSecure_cues (s : State) (x) : (s.setSecure x).cues = s.cues := rfl
@[simp] theorem setSecure_overlay (s : State) (x) : (s.setSecure x).overlay = s.overlay := rfl
@[simp] theorem setSecure_count (s : State) (x) : (s.setSecure x).count = s.count := rfl
@[simp] theorem setSecure_sup (s : State) (x) : (s.setSecure x).sup = s.sup := rfl
@[simp] theorem setSecure_link (s : State) (x) : (s.setSecure x).link = s.link := rfl
@[simp] theorem setSecure_free (s : State) (x) : (s.setSecure x).free = s.free := rfl
@[simp] theorem setSecure_out (s : State) (x) : (s.setSecure x).out = s.out := rfl

/-! ### setUnpack -/

@[simp] theorem setUnpack_pending (s : State) (x) : (s.setUnpack x).pending = s.pending := rfl
@[simp] theorem setUnpack_power (s : State) (x) : (s.setUnpack x).power = s.power := rfl
@[simp] theorem setUnpack_path (s : State) (x) : (s.setUnpack x).path = s.path := rfl
@[simp] theorem setUnpack_clock (s : State) (x) : (s.setUnpack x).clock = s.clock := rfl
@[simp] theorem setUnpack_ctl (s : State) (x) : (s.setUnpack x).ctl = s.ctl := rfl
@[simp] theorem setUnpack_keys (s : State) (x) : (s.setUnpack x).keys = s.keys := rfl
@[simp] theorem setUnpack_secure (s : State) (x) : (s.setUnpack x).secure = s.secure := rfl
@[simp] theorem setUnpack_unpack (s : State) (x) : (s.setUnpack x).unpack = x := rfl
@[simp] theorem setUnpack_sound (s : State) (x) : (s.setUnpack x).sound = s.sound := rfl
@[simp] theorem setUnpack_cues (s : State) (x) : (s.setUnpack x).cues = s.cues := rfl
@[simp] theorem setUnpack_overlay (s : State) (x) : (s.setUnpack x).overlay = s.overlay := rfl
@[simp] theorem setUnpack_count (s : State) (x) : (s.setUnpack x).count = s.count := rfl
@[simp] theorem setUnpack_sup (s : State) (x) : (s.setUnpack x).sup = s.sup := rfl
@[simp] theorem setUnpack_link (s : State) (x) : (s.setUnpack x).link = s.link := rfl
@[simp] theorem setUnpack_free (s : State) (x) : (s.setUnpack x).free = s.free := rfl
@[simp] theorem setUnpack_out (s : State) (x) : (s.setUnpack x).out = s.out := rfl

/-! ### setSound -/

@[simp] theorem setSound_pending (s : State) (x) : (s.setSound x).pending = s.pending := rfl
@[simp] theorem setSound_power (s : State) (x) : (s.setSound x).power = s.power := rfl
@[simp] theorem setSound_path (s : State) (x) : (s.setSound x).path = s.path := rfl
@[simp] theorem setSound_clock (s : State) (x) : (s.setSound x).clock = s.clock := rfl
@[simp] theorem setSound_ctl (s : State) (x) : (s.setSound x).ctl = s.ctl := rfl
@[simp] theorem setSound_keys (s : State) (x) : (s.setSound x).keys = s.keys := rfl
@[simp] theorem setSound_secure (s : State) (x) : (s.setSound x).secure = s.secure := rfl
@[simp] theorem setSound_unpack (s : State) (x) : (s.setSound x).unpack = s.unpack := rfl
@[simp] theorem setSound_sound (s : State) (x) : (s.setSound x).sound = x := rfl
@[simp] theorem setSound_cues (s : State) (x) : (s.setSound x).cues = s.cues := rfl
@[simp] theorem setSound_overlay (s : State) (x) : (s.setSound x).overlay = s.overlay := rfl
@[simp] theorem setSound_count (s : State) (x) : (s.setSound x).count = s.count := rfl
@[simp] theorem setSound_sup (s : State) (x) : (s.setSound x).sup = s.sup := rfl
@[simp] theorem setSound_link (s : State) (x) : (s.setSound x).link = s.link := rfl
@[simp] theorem setSound_free (s : State) (x) : (s.setSound x).free = s.free := rfl
@[simp] theorem setSound_out (s : State) (x) : (s.setSound x).out = s.out := rfl

/-! ### setCues -/

@[simp] theorem setCues_pending (s : State) (x) : (s.setCues x).pending = s.pending := rfl
@[simp] theorem setCues_power (s : State) (x) : (s.setCues x).power = s.power := rfl
@[simp] theorem setCues_path (s : State) (x) : (s.setCues x).path = s.path := rfl
@[simp] theorem setCues_clock (s : State) (x) : (s.setCues x).clock = s.clock := rfl
@[simp] theorem setCues_ctl (s : State) (x) : (s.setCues x).ctl = s.ctl := rfl
@[simp] theorem setCues_keys (s : State) (x) : (s.setCues x).keys = s.keys := rfl
@[simp] theorem setCues_secure (s : State) (x) : (s.setCues x).secure = s.secure := rfl
@[simp] theorem setCues_unpack (s : State) (x) : (s.setCues x).unpack = s.unpack := rfl
@[simp] theorem setCues_sound (s : State) (x) : (s.setCues x).sound = s.sound := rfl
@[simp] theorem setCues_cues (s : State) (x) : (s.setCues x).cues = x := rfl
@[simp] theorem setCues_overlay (s : State) (x) : (s.setCues x).overlay = s.overlay := rfl
@[simp] theorem setCues_count (s : State) (x) : (s.setCues x).count = s.count := rfl
@[simp] theorem setCues_sup (s : State) (x) : (s.setCues x).sup = s.sup := rfl
@[simp] theorem setCues_link (s : State) (x) : (s.setCues x).link = s.link := rfl
@[simp] theorem setCues_free (s : State) (x) : (s.setCues x).free = s.free := rfl
@[simp] theorem setCues_out (s : State) (x) : (s.setCues x).out = s.out := rfl

/-! ### setOverlay -/

@[simp] theorem setOverlay_pending (s : State) (x) : (s.setOverlay x).pending = s.pending := rfl
@[simp] theorem setOverlay_power (s : State) (x) : (s.setOverlay x).power = s.power := rfl
@[simp] theorem setOverlay_path (s : State) (x) : (s.setOverlay x).path = s.path := rfl
@[simp] theorem setOverlay_clock (s : State) (x) : (s.setOverlay x).clock = s.clock := rfl
@[simp] theorem setOverlay_ctl (s : State) (x) : (s.setOverlay x).ctl = s.ctl := rfl
@[simp] theorem setOverlay_keys (s : State) (x) : (s.setOverlay x).keys = s.keys := rfl
@[simp] theorem setOverlay_secure (s : State) (x) : (s.setOverlay x).secure = s.secure := rfl
@[simp] theorem setOverlay_unpack (s : State) (x) : (s.setOverlay x).unpack = s.unpack := rfl
@[simp] theorem setOverlay_sound (s : State) (x) : (s.setOverlay x).sound = s.sound := rfl
@[simp] theorem setOverlay_cues (s : State) (x) : (s.setOverlay x).cues = s.cues := rfl
@[simp] theorem setOverlay_overlay (s : State) (x) : (s.setOverlay x).overlay = x := rfl
@[simp] theorem setOverlay_count (s : State) (x) : (s.setOverlay x).count = s.count := rfl
@[simp] theorem setOverlay_sup (s : State) (x) : (s.setOverlay x).sup = s.sup := rfl
@[simp] theorem setOverlay_link (s : State) (x) : (s.setOverlay x).link = s.link := rfl
@[simp] theorem setOverlay_free (s : State) (x) : (s.setOverlay x).free = s.free := rfl
@[simp] theorem setOverlay_out (s : State) (x) : (s.setOverlay x).out = s.out := rfl

/-! ### setCount -/

@[simp] theorem setCount_pending (s : State) (x) : (s.setCount x).pending = s.pending := rfl
@[simp] theorem setCount_power (s : State) (x) : (s.setCount x).power = s.power := rfl
@[simp] theorem setCount_path (s : State) (x) : (s.setCount x).path = s.path := rfl
@[simp] theorem setCount_clock (s : State) (x) : (s.setCount x).clock = s.clock := rfl
@[simp] theorem setCount_ctl (s : State) (x) : (s.setCount x).ctl = s.ctl := rfl
@[simp] theorem setCount_keys (s : State) (x) : (s.setCount x).keys = s.keys := rfl
@[simp] theorem setCount_secure (s : State) (x) : (s.setCount x).secure = s.secure := rfl
@[simp] theorem setCount_unpack (s : State) (x) : (s.setCount x).unpack = s.unpack := rfl
@[simp] theorem setCount_sound (s : State) (x) : (s.setCount x).sound = s.sound := rfl
@[simp] theorem setCount_cues (s : State) (x) : (s.setCount x).cues = s.cues := rfl
@[simp] theorem setCount_overlay (s : State) (x) : (s.setCount x).overlay = s.overlay := rfl
@[simp] theorem setCount_count (s : State) (x) : (s.setCount x).count = x := rfl
@[simp] theorem setCount_sup (s : State) (x) : (s.setCount x).sup = s.sup := rfl
@[simp] theorem setCount_link (s : State) (x) : (s.setCount x).link = s.link := rfl
@[simp] theorem setCount_free (s : State) (x) : (s.setCount x).free = s.free := rfl
@[simp] theorem setCount_out (s : State) (x) : (s.setCount x).out = s.out := rfl

/-! ### setSup -/

@[simp] theorem setSup_pending (s : State) (x) : (s.setSup x).pending = s.pending := rfl
@[simp] theorem setSup_power (s : State) (x) : (s.setSup x).power = s.power := rfl
@[simp] theorem setSup_path (s : State) (x) : (s.setSup x).path = s.path := rfl
@[simp] theorem setSup_clock (s : State) (x) : (s.setSup x).clock = s.clock := rfl
@[simp] theorem setSup_ctl (s : State) (x) : (s.setSup x).ctl = s.ctl := rfl
@[simp] theorem setSup_keys (s : State) (x) : (s.setSup x).keys = s.keys := rfl
@[simp] theorem setSup_secure (s : State) (x) : (s.setSup x).secure = s.secure := rfl
@[simp] theorem setSup_unpack (s : State) (x) : (s.setSup x).unpack = s.unpack := rfl
@[simp] theorem setSup_sound (s : State) (x) : (s.setSup x).sound = s.sound := rfl
@[simp] theorem setSup_cues (s : State) (x) : (s.setSup x).cues = s.cues := rfl
@[simp] theorem setSup_overlay (s : State) (x) : (s.setSup x).overlay = s.overlay := rfl
@[simp] theorem setSup_count (s : State) (x) : (s.setSup x).count = s.count := rfl
@[simp] theorem setSup_sup (s : State) (x) : (s.setSup x).sup = x := rfl
@[simp] theorem setSup_link (s : State) (x) : (s.setSup x).link = s.link := rfl
@[simp] theorem setSup_free (s : State) (x) : (s.setSup x).free = s.free := rfl
@[simp] theorem setSup_out (s : State) (x) : (s.setSup x).out = s.out := rfl

/-! ### setLink -/

@[simp] theorem setLink_pending (s : State) (x) : (s.setLink x).pending = s.pending := rfl
@[simp] theorem setLink_power (s : State) (x) : (s.setLink x).power = s.power := rfl
@[simp] theorem setLink_path (s : State) (x) : (s.setLink x).path = s.path := rfl
@[simp] theorem setLink_clock (s : State) (x) : (s.setLink x).clock = s.clock := rfl
@[simp] theorem setLink_ctl (s : State) (x) : (s.setLink x).ctl = s.ctl := rfl
@[simp] theorem setLink_keys (s : State) (x) : (s.setLink x).keys = s.keys := rfl
@[simp] theorem setLink_secure (s : State) (x) : (s.setLink x).secure = s.secure := rfl
@[simp] theorem setLink_unpack (s : State) (x) : (s.setLink x).unpack = s.unpack := rfl
@[simp] theorem setLink_sound (s : State) (x) : (s.setLink x).sound = s.sound := rfl
@[simp] theorem setLink_cues (s : State) (x) : (s.setLink x).cues = s.cues := rfl
@[simp] theorem setLink_overlay (s : State) (x) : (s.setLink x).overlay = s.overlay := rfl
@[simp] theorem setLink_count (s : State) (x) : (s.setLink x).count = s.count := rfl
@[simp] theorem setLink_sup (s : State) (x) : (s.setLink x).sup = s.sup := rfl
@[simp] theorem setLink_link (s : State) (x) : (s.setLink x).link = x := rfl
@[simp] theorem setLink_free (s : State) (x) : (s.setLink x).free = s.free := rfl
@[simp] theorem setLink_out (s : State) (x) : (s.setLink x).out = s.out := rfl

/-! ### setFree -/

@[simp] theorem setFree_pending (s : State) (x) : (s.setFree x).pending = s.pending := rfl
@[simp] theorem setFree_power (s : State) (x) : (s.setFree x).power = s.power := rfl
@[simp] theorem setFree_path (s : State) (x) : (s.setFree x).path = s.path := rfl
@[simp] theorem setFree_clock (s : State) (x) : (s.setFree x).clock = s.clock := rfl
@[simp] theorem setFree_ctl (s : State) (x) : (s.setFree x).ctl = s.ctl := rfl
@[simp] theorem setFree_keys (s : State) (x) : (s.setFree x).keys = s.keys := rfl
@[simp] theorem setFree_secure (s : State) (x) : (s.setFree x).secure = s.secure := rfl
@[simp] theorem setFree_unpack (s : State) (x) : (s.setFree x).unpack = s.unpack := rfl
@[simp] theorem setFree_sound (s : State) (x) : (s.setFree x).sound = s.sound := rfl
@[simp] theorem setFree_cues (s : State) (x) : (s.setFree x).cues = s.cues := rfl
@[simp] theorem setFree_overlay (s : State) (x) : (s.setFree x).overlay = s.overlay := rfl
@[simp] theorem setFree_count (s : State) (x) : (s.setFree x).count = s.count := rfl
@[simp] theorem setFree_sup (s : State) (x) : (s.setFree x).sup = s.sup := rfl
@[simp] theorem setFree_link (s : State) (x) : (s.setFree x).link = s.link := rfl
@[simp] theorem setFree_free (s : State) (x) : (s.setFree x).free = x := rfl
@[simp] theorem setFree_out (s : State) (x) : (s.setFree x).out = s.out := rfl

/-! ### setOut -/

@[simp] theorem setOut_pending (s : State) (x) : (s.setOut x).pending = s.pending := rfl
@[simp] theorem setOut_power (s : State) (x) : (s.setOut x).power = s.power := rfl
@[simp] theorem setOut_path (s : State) (x) : (s.setOut x).path = s.path := rfl
@[simp] theorem setOut_clock (s : State) (x) : (s.setOut x).clock = s.clock := rfl
@[simp] theorem setOut_ctl (s : State) (x) : (s.setOut x).ctl = s.ctl := rfl
@[simp] theorem setOut_keys (s : State) (x) : (s.setOut x).keys = s.keys := rfl
@[simp] theorem setOut_secure (s : State) (x) : (s.setOut x).secure = s.secure := rfl
@[simp] theorem setOut_unpack (s : State) (x) : (s.setOut x).unpack = s.unpack := rfl
@[simp] theorem setOut_sound (s : State) (x) : (s.setOut x).sound = s.sound := rfl
@[simp] theorem setOut_cues (s : State) (x) : (s.setOut x).cues = s.cues := rfl
@[simp] theorem setOut_overlay (s : State) (x) : (s.setOut x).overlay = s.overlay := rfl
@[simp] theorem setOut_count (s : State) (x) : (s.setOut x).count = s.count := rfl
@[simp] theorem setOut_sup (s : State) (x) : (s.setOut x).sup = s.sup := rfl
@[simp] theorem setOut_link (s : State) (x) : (s.setOut x).link = s.link := rfl
@[simp] theorem setOut_free (s : State) (x) : (s.setOut x).free = s.free := rfl
@[simp] theorem setOut_out (s : State) (x) : (s.setOut x).out = x := rfl

/-! ### Equality -/

/-- States with equal fields are equal. -/
theorem state_ext {s t : State} (pending : s.pending = t.pending) (power : s.power = t.power) (path : s.path = t.path)
    (clock : s.clock = t.clock) (ctl : s.ctl = t.ctl) (keys : s.keys = t.keys) (secure : s.secure = t.secure)
    (unpack : s.unpack = t.unpack) (sound : s.sound = t.sound) (cues : s.cues = t.cues) (overlay : s.overlay = t.overlay)
    (count : s.count = t.count) (sup : s.sup = t.sup) (link : s.link = t.link) (free : s.free = t.free)
    (out : s.out = t.out) : s = t := by
  cases s; cases t; simp_all

end Sys2Proof.Machine
end

