-- ==== Sys2Proof/Laws/Frames.lean ====
section
/-! SUPPORT. Laws/Frames.lean: the fields of State that each shared operation leaves unchanged. -/

namespace Sys2Proof.Machine

/-! ### quiet -/

@[simp] theorem quiet_pending (s : State) : (quiet s).pending = s.pending := rfl
@[simp] theorem quiet_power (s : State) : (quiet s).power = s.power := rfl
@[simp] theorem quiet_path (s : State) : (quiet s).path = s.path := rfl
@[simp] theorem quiet_clock (s : State) : (quiet s).clock = s.clock := rfl
@[simp] theorem quiet_ctl (s : State) : (quiet s).ctl = s.ctl := rfl
@[simp] theorem quiet_keys (s : State) : (quiet s).keys = s.keys := rfl
@[simp] theorem quiet_secure (s : State) : (quiet s).secure = s.secure := rfl
@[simp] theorem quiet_unpack (s : State) : (quiet s).unpack = s.unpack := rfl
@[simp] theorem quiet_sound (s : State) : (quiet s).sound = s.sound := rfl
@[simp] theorem quiet_cues (s : State) : (quiet s).cues = s.cues := rfl
@[simp] theorem quiet_overlay (s : State) : (quiet s).overlay = s.overlay := rfl
@[simp] theorem quiet_count (s : State) : (quiet s).count = s.count := rfl
@[simp] theorem quiet_sup (s : State) : (quiet s).sup = s.sup := rfl
@[simp] theorem quiet_link (s : State) : (quiet s).link = s.link := rfl
@[simp] theorem quiet_free (s : State) : (quiet s).free = s.free := rfl
@[simp] theorem quiet_out (s : State) : (quiet s).out = {} := rfl

/-! ### sendUp -/

@[simp] theorem sendUp_pending (m : UpMsg) (s : State) : (sendUp m s).pending = s.pending := rfl
@[simp] theorem sendUp_power (m : UpMsg) (s : State) : (sendUp m s).power = s.power := rfl
@[simp] theorem sendUp_path (m : UpMsg) (s : State) : (sendUp m s).path = s.path := rfl
@[simp] theorem sendUp_clock (m : UpMsg) (s : State) : (sendUp m s).clock = s.clock := rfl
@[simp] theorem sendUp_ctl (m : UpMsg) (s : State) : (sendUp m s).ctl = s.ctl := rfl
@[simp] theorem sendUp_keys (m : UpMsg) (s : State) : (sendUp m s).keys = s.keys := rfl
@[simp] theorem sendUp_secure (m : UpMsg) (s : State) : (sendUp m s).secure = s.secure := rfl
@[simp] theorem sendUp_unpack (m : UpMsg) (s : State) : (sendUp m s).unpack = s.unpack := rfl
@[simp] theorem sendUp_sound (m : UpMsg) (s : State) : (sendUp m s).sound = s.sound := rfl
@[simp] theorem sendUp_cues (m : UpMsg) (s : State) : (sendUp m s).cues = s.cues := rfl
@[simp] theorem sendUp_overlay (m : UpMsg) (s : State) : (sendUp m s).overlay = s.overlay := rfl
@[simp] theorem sendUp_count (m : UpMsg) (s : State) : (sendUp m s).count = s.count := rfl
@[simp] theorem sendUp_sup (m : UpMsg) (s : State) : (sendUp m s).sup = s.sup := rfl
@[simp] theorem sendUp_link (m : UpMsg) (s : State) : (sendUp m s).link = s.link := rfl
@[simp] theorem sendUp_free (m : UpMsg) (s : State) : (sendUp m s).free = s.free := rfl

/-! ### sendDown -/

@[simp] theorem sendDown_pending (m : DownMsg) (s : State) : (sendDown m s).pending = s.pending := rfl
@[simp] theorem sendDown_power (m : DownMsg) (s : State) : (sendDown m s).power = s.power := rfl
@[simp] theorem sendDown_path (m : DownMsg) (s : State) : (sendDown m s).path = s.path := rfl
@[simp] theorem sendDown_clock (m : DownMsg) (s : State) : (sendDown m s).clock = s.clock := rfl
@[simp] theorem sendDown_ctl (m : DownMsg) (s : State) : (sendDown m s).ctl = s.ctl := rfl
@[simp] theorem sendDown_keys (m : DownMsg) (s : State) : (sendDown m s).keys = s.keys := rfl
@[simp] theorem sendDown_secure (m : DownMsg) (s : State) : (sendDown m s).secure = s.secure := rfl
@[simp] theorem sendDown_unpack (m : DownMsg) (s : State) : (sendDown m s).unpack = s.unpack := rfl
@[simp] theorem sendDown_sound (m : DownMsg) (s : State) : (sendDown m s).sound = s.sound := rfl
@[simp] theorem sendDown_cues (m : DownMsg) (s : State) : (sendDown m s).cues = s.cues := rfl
@[simp] theorem sendDown_overlay (m : DownMsg) (s : State) : (sendDown m s).overlay = s.overlay := rfl
@[simp] theorem sendDown_count (m : DownMsg) (s : State) : (sendDown m s).count = s.count := rfl
@[simp] theorem sendDown_sup (m : DownMsg) (s : State) : (sendDown m s).sup = s.sup := rfl
@[simp] theorem sendDown_link (m : DownMsg) (s : State) : (sendDown m s).link = s.link := rfl
@[simp] theorem sendDown_free (m : DownMsg) (s : State) : (sendDown m s).free = s.free := rfl

/-! ### acknowledge -/

@[simp] theorem acknowledge_pending (n : Nat) (s : State) : (acknowledge n s).pending = s.pending := rfl
@[simp] theorem acknowledge_power (n : Nat) (s : State) : (acknowledge n s).power = s.power := rfl
@[simp] theorem acknowledge_path (n : Nat) (s : State) : (acknowledge n s).path = s.path := rfl
@[simp] theorem acknowledge_clock (n : Nat) (s : State) : (acknowledge n s).clock = s.clock := rfl
@[simp] theorem acknowledge_ctl (n : Nat) (s : State) : (acknowledge n s).ctl = s.ctl := rfl
@[simp] theorem acknowledge_keys (n : Nat) (s : State) : (acknowledge n s).keys = s.keys := rfl
@[simp] theorem acknowledge_secure (n : Nat) (s : State) : (acknowledge n s).secure = s.secure := rfl
@[simp] theorem acknowledge_unpack (n : Nat) (s : State) : (acknowledge n s).unpack = s.unpack := rfl
@[simp] theorem acknowledge_sound (n : Nat) (s : State) : (acknowledge n s).sound = s.sound := rfl
@[simp] theorem acknowledge_cues (n : Nat) (s : State) : (acknowledge n s).cues = s.cues := rfl
@[simp] theorem acknowledge_overlay (n : Nat) (s : State) : (acknowledge n s).overlay = s.overlay := rfl
@[simp] theorem acknowledge_count (n : Nat) (s : State) : (acknowledge n s).count = s.count := rfl
@[simp] theorem acknowledge_sup (n : Nat) (s : State) : (acknowledge n s).sup = s.sup := rfl
@[simp] theorem acknowledge_link (n : Nat) (s : State) : (acknowledge n s).link = s.link := rfl
@[simp] theorem acknowledge_free (n : Nat) (s : State) : (acknowledge n s).free = s.free := rfl
@[simp] theorem acknowledge_out (n : Nat) (s : State) : (acknowledge n s).out = { s.out with acked := n } := rfl

/-! ### transferLost -/

@[simp] theorem transferLost_pending (s : State) : (transferLost s).pending = s.pending := rfl
@[simp] theorem transferLost_power (s : State) : (transferLost s).power = s.power := rfl
@[simp] theorem transferLost_path (s : State) : (transferLost s).path = s.path := rfl
@[simp] theorem transferLost_clock (s : State) : (transferLost s).clock = s.clock := rfl
@[simp] theorem transferLost_ctl (s : State) : (transferLost s).ctl = s.ctl := rfl
@[simp] theorem transferLost_keys (s : State) : (transferLost s).keys = s.keys := rfl
@[simp] theorem transferLost_secure (s : State) : (transferLost s).secure = s.secure := rfl
@[simp] theorem transferLost_unpack (s : State) : (transferLost s).unpack = s.unpack := rfl
@[simp] theorem transferLost_sound (s : State) : (transferLost s).sound = s.sound := rfl
@[simp] theorem transferLost_cues (s : State) : (transferLost s).cues = s.cues := rfl
@[simp] theorem transferLost_overlay (s : State) : (transferLost s).overlay = s.overlay := rfl
@[simp] theorem transferLost_count (s : State) : (transferLost s).count = s.count := rfl
@[simp] theorem transferLost_sup (s : State) : (transferLost s).sup = s.sup := rfl
@[simp] theorem transferLost_free (s : State) : (transferLost s).free = s.free := rfl
@[simp] theorem transferLost_out (s : State) : (transferLost s).out = s.out := rfl

/-! ### answerWith -/

@[simp] theorem answerWith_pending (r : LinkResult) (d : Nat) (a : Int) (s : State) : (answerWith r d a s).pending = s.pending := rfl
@[simp] theorem answerWith_power (r : LinkResult) (d : Nat) (a : Int) (s : State) : (answerWith r d a s).power = s.power := rfl
@[simp] theorem answerWith_path (r : LinkResult) (d : Nat) (a : Int) (s : State) : (answerWith r d a s).path = s.path := rfl
@[simp] theorem answerWith_clock (r : LinkResult) (d : Nat) (a : Int) (s : State) : (answerWith r d a s).clock = s.clock := rfl
@[simp] theorem answerWith_ctl (r : LinkResult) (d : Nat) (a : Int) (s : State) : (answerWith r d a s).ctl = s.ctl := rfl
@[simp] theorem answerWith_keys (r : LinkResult) (d : Nat) (a : Int) (s : State) : (answerWith r d a s).keys = s.keys := rfl
@[simp] theorem answerWith_secure (r : LinkResult) (d : Nat) (a : Int) (s : State) : (answerWith r d a s).secure = s.secure := rfl
@[simp] theorem answerWith_unpack (r : LinkResult) (d : Nat) (a : Int) (s : State) : (answerWith r d a s).unpack = s.unpack := rfl
@[simp] theorem answerWith_sound (r : LinkResult) (d : Nat) (a : Int) (s : State) : (answerWith r d a s).sound = s.sound := rfl
@[simp] theorem answerWith_cues (r : LinkResult) (d : Nat) (a : Int) (s : State) : (answerWith r d a s).cues = s.cues := rfl
@[simp] theorem answerWith_overlay (r : LinkResult) (d : Nat) (a : Int) (s : State) : (answerWith r d a s).overlay = s.overlay := rfl
@[simp] theorem answerWith_count (r : LinkResult) (d : Nat) (a : Int) (s : State) : (answerWith r d a s).count = s.count := rfl
@[simp] theorem answerWith_sup (r : LinkResult) (d : Nat) (a : Int) (s : State) : (answerWith r d a s).sup = s.sup := rfl
@[simp] theorem answerWith_free (r : LinkResult) (d : Nat) (a : Int) (s : State) : (answerWith r d a s).free = s.free := rfl
@[simp] theorem answerWith_out (r : LinkResult) (d : Nat) (a : Int) (s : State) : (answerWith r d a s).out = s.out := rfl

/-! ### answer -/

@[simp] theorem answer_pending (r : LinkResult) (d : Nat) (s : State) : (answer r d s).pending = s.pending := rfl
@[simp] theorem answer_power (r : LinkResult) (d : Nat) (s : State) : (answer r d s).power = s.power := rfl
@[simp] theorem answer_path (r : LinkResult) (d : Nat) (s : State) : (answer r d s).path = s.path := rfl
@[simp] theorem answer_clock (r : LinkResult) (d : Nat) (s : State) : (answer r d s).clock = s.clock := rfl
@[simp] theorem answer_ctl (r : LinkResult) (d : Nat) (s : State) : (answer r d s).ctl = s.ctl := rfl
@[simp] theorem answer_keys (r : LinkResult) (d : Nat) (s : State) : (answer r d s).keys = s.keys := rfl
@[simp] theorem answer_secure (r : LinkResult) (d : Nat) (s : State) : (answer r d s).secure = s.secure := rfl
@[simp] theorem answer_unpack (r : LinkResult) (d : Nat) (s : State) : (answer r d s).unpack = s.unpack := rfl
@[simp] theorem answer_sound (r : LinkResult) (d : Nat) (s : State) : (answer r d s).sound = s.sound := rfl
@[simp] theorem answer_cues (r : LinkResult) (d : Nat) (s : State) : (answer r d s).cues = s.cues := rfl
@[simp] theorem answer_overlay (r : LinkResult) (d : Nat) (s : State) : (answer r d s).overlay = s.overlay := rfl
@[simp] theorem answer_count (r : LinkResult) (d : Nat) (s : State) : (answer r d s).count = s.count := rfl
@[simp] theorem answer_sup (r : LinkResult) (d : Nat) (s : State) : (answer r d s).sup = s.sup := rfl
@[simp] theorem answer_free (r : LinkResult) (d : Nat) (s : State) : (answer r d s).free = s.free := rfl
@[simp] theorem answer_out (r : LinkResult) (d : Nat) (s : State) : (answer r d s).out = s.out := rfl

/-! ### setEvent -/

@[simp] theorem setEvent_pending (e : LinkEvent) (s : State) : (setEvent e s).pending = s.pending := rfl
@[simp] theorem setEvent_power (e : LinkEvent) (s : State) : (setEvent e s).power = s.power := rfl
@[simp] theorem setEvent_path (e : LinkEvent) (s : State) : (setEvent e s).path = s.path := rfl
@[simp] theorem setEvent_clock (e : LinkEvent) (s : State) : (setEvent e s).clock = s.clock := rfl
@[simp] theorem setEvent_ctl (e : LinkEvent) (s : State) : (setEvent e s).ctl = s.ctl := rfl
@[simp] theorem setEvent_keys (e : LinkEvent) (s : State) : (setEvent e s).keys = s.keys := rfl
@[simp] theorem setEvent_secure (e : LinkEvent) (s : State) : (setEvent e s).secure = s.secure := rfl
@[simp] theorem setEvent_unpack (e : LinkEvent) (s : State) : (setEvent e s).unpack = s.unpack := rfl
@[simp] theorem setEvent_sound (e : LinkEvent) (s : State) : (setEvent e s).sound = s.sound := rfl
@[simp] theorem setEvent_cues (e : LinkEvent) (s : State) : (setEvent e s).cues = s.cues := rfl
@[simp] theorem setEvent_overlay (e : LinkEvent) (s : State) : (setEvent e s).overlay = s.overlay := rfl
@[simp] theorem setEvent_count (e : LinkEvent) (s : State) : (setEvent e s).count = s.count := rfl
@[simp] theorem setEvent_sup (e : LinkEvent) (s : State) : (setEvent e s).sup = s.sup := rfl
@[simp] theorem setEvent_free (e : LinkEvent) (s : State) : (setEvent e s).free = s.free := rfl
@[simp] theorem setEvent_out (e : LinkEvent) (s : State) : (setEvent e s).out = s.out := rfl

/-! ### startRamp -/

@[simp] theorem startRamp_pending (b : GainRamp) (g : RampTarget) (s : State) : (startRamp b g s).pending = s.pending := rfl
@[simp] theorem startRamp_power (b : GainRamp) (g : RampTarget) (s : State) : (startRamp b g s).power = s.power := rfl
@[simp] theorem startRamp_path (b : GainRamp) (g : RampTarget) (s : State) : (startRamp b g s).path = s.path := rfl
@[simp] theorem startRamp_clock (b : GainRamp) (g : RampTarget) (s : State) : (startRamp b g s).clock = s.clock := rfl
@[simp] theorem startRamp_ctl (b : GainRamp) (g : RampTarget) (s : State) : (startRamp b g s).ctl = s.ctl := rfl
@[simp] theorem startRamp_keys (b : GainRamp) (g : RampTarget) (s : State) : (startRamp b g s).keys = s.keys := rfl
@[simp] theorem startRamp_secure (b : GainRamp) (g : RampTarget) (s : State) : (startRamp b g s).secure = s.secure := rfl
@[simp] theorem startRamp_unpack (b : GainRamp) (g : RampTarget) (s : State) : (startRamp b g s).unpack = s.unpack := rfl
@[simp] theorem startRamp_cues (b : GainRamp) (g : RampTarget) (s : State) : (startRamp b g s).cues = s.cues := rfl
@[simp] theorem startRamp_overlay (b : GainRamp) (g : RampTarget) (s : State) : (startRamp b g s).overlay = s.overlay := rfl
@[simp] theorem startRamp_count (b : GainRamp) (g : RampTarget) (s : State) : (startRamp b g s).count = s.count := rfl
@[simp] theorem startRamp_sup (b : GainRamp) (g : RampTarget) (s : State) : (startRamp b g s).sup = s.sup := rfl
@[simp] theorem startRamp_link (b : GainRamp) (g : RampTarget) (s : State) : (startRamp b g s).link = s.link := rfl
@[simp] theorem startRamp_free (b : GainRamp) (g : RampTarget) (s : State) : (startRamp b g s).free = s.free := rfl
@[simp] theorem startRamp_out (b : GainRamp) (g : RampTarget) (s : State) : (startRamp b g s).out = s.out := rfl

/-! ### activateMask -/

@[simp] theorem activateMask_pending (s : State) : (activateMask s).pending = s.pending := rfl
@[simp] theorem activateMask_power (s : State) : (activateMask s).power = s.power := rfl
@[simp] theorem activateMask_path (s : State) : (activateMask s).path = s.path := rfl
@[simp] theorem activateMask_clock (s : State) : (activateMask s).clock = s.clock := rfl
@[simp] theorem activateMask_ctl (s : State) : (activateMask s).ctl = s.ctl := rfl
@[simp] theorem activateMask_keys (s : State) : (activateMask s).keys = s.keys := rfl
@[simp] theorem activateMask_secure (s : State) : (activateMask s).secure = s.secure := rfl
@[simp] theorem activateMask_unpack (s : State) : (activateMask s).unpack = s.unpack := rfl
@[simp] theorem activateMask_cues (s : State) : (activateMask s).cues = s.cues := rfl
@[simp] theorem activateMask_overlay (s : State) : (activateMask s).overlay = s.overlay := rfl
@[simp] theorem activateMask_count (s : State) : (activateMask s).count = s.count := rfl
@[simp] theorem activateMask_sup (s : State) : (activateMask s).sup = s.sup := rfl
@[simp] theorem activateMask_link (s : State) : (activateMask s).link = s.link := rfl
@[simp] theorem activateMask_free (s : State) : (activateMask s).free = s.free := rfl
@[simp] theorem activateMask_out (s : State) : (activateMask s).out = s.out := rfl

/-! ### outputLeft -/

@[simp] theorem outputLeft_pending (b : GainRamp) (s : State) : (outputLeft b s).pending = s.pending := by unfold outputLeft; split <;> rfl
@[simp] theorem outputLeft_power (b : GainRamp) (s : State) : (outputLeft b s).power = s.power := by unfold outputLeft; split <;> rfl
@[simp] theorem outputLeft_path (b : GainRamp) (s : State) : (outputLeft b s).path = s.path := by unfold outputLeft; split <;> rfl
@[simp] theorem outputLeft_clock (b : GainRamp) (s : State) : (outputLeft b s).clock = s.clock := by unfold outputLeft; split <;> rfl
@[simp] theorem outputLeft_ctl (b : GainRamp) (s : State) : (outputLeft b s).ctl = s.ctl := by unfold outputLeft; split <;> rfl
@[simp] theorem outputLeft_keys (b : GainRamp) (s : State) : (outputLeft b s).keys = s.keys := by unfold outputLeft; split <;> rfl
@[simp] theorem outputLeft_secure (b : GainRamp) (s : State) : (outputLeft b s).secure = s.secure := by unfold outputLeft; split <;> rfl
@[simp] theorem outputLeft_unpack (b : GainRamp) (s : State) : (outputLeft b s).unpack = s.unpack := by unfold outputLeft; split <;> rfl
@[simp] theorem outputLeft_cues (b : GainRamp) (s : State) : (outputLeft b s).cues = s.cues := by unfold outputLeft; split <;> rfl
@[simp] theorem outputLeft_overlay (b : GainRamp) (s : State) : (outputLeft b s).overlay = s.overlay := by unfold outputLeft; split <;> rfl
@[simp] theorem outputLeft_count (b : GainRamp) (s : State) : (outputLeft b s).count = s.count := by unfold outputLeft; split <;> rfl
@[simp] theorem outputLeft_sup (b : GainRamp) (s : State) : (outputLeft b s).sup = s.sup := by unfold outputLeft; split <;> rfl
@[simp] theorem outputLeft_link (b : GainRamp) (s : State) : (outputLeft b s).link = s.link := by unfold outputLeft; split <;> rfl
@[simp] theorem outputLeft_free (b : GainRamp) (s : State) : (outputLeft b s).free = s.free := by unfold outputLeft; split <;> rfl
@[simp] theorem outputLeft_out (b : GainRamp) (s : State) : (outputLeft b s).out = s.out := by unfold outputLeft; split <;> rfl

/-! ### outputReturned -/

@[simp] theorem outputReturned_pending (b : GainRamp) (s : State) : (outputReturned b s).pending = s.pending := by unfold outputReturned; split <;> rfl
@[simp] theorem outputReturned_power (b : GainRamp) (s : State) : (outputReturned b s).power = s.power := by unfold outputReturned; split <;> rfl
@[simp] theorem outputReturned_path (b : GainRamp) (s : State) : (outputReturned b s).path = s.path := by unfold outputReturned; split <;> rfl
@[simp] theorem outputReturned_clock (b : GainRamp) (s : State) : (outputReturned b s).clock = s.clock := by unfold outputReturned; split <;> rfl
@[simp] theorem outputReturned_ctl (b : GainRamp) (s : State) : (outputReturned b s).ctl = s.ctl := by unfold outputReturned; split <;> rfl
@[simp] theorem outputReturned_keys (b : GainRamp) (s : State) : (outputReturned b s).keys = s.keys := by unfold outputReturned; split <;> rfl
@[simp] theorem outputReturned_secure (b : GainRamp) (s : State) : (outputReturned b s).secure = s.secure := by unfold outputReturned; split <;> rfl
@[simp] theorem outputReturned_unpack (b : GainRamp) (s : State) : (outputReturned b s).unpack = s.unpack := by unfold outputReturned; split <;> rfl
@[simp] theorem outputReturned_cues (b : GainRamp) (s : State) : (outputReturned b s).cues = s.cues := by unfold outputReturned; split <;> rfl
@[simp] theorem outputReturned_overlay (b : GainRamp) (s : State) : (outputReturned b s).overlay = s.overlay := by unfold outputReturned; split <;> rfl
@[simp] theorem outputReturned_count (b : GainRamp) (s : State) : (outputReturned b s).count = s.count := by unfold outputReturned; split <;> rfl
@[simp] theorem outputReturned_sup (b : GainRamp) (s : State) : (outputReturned b s).sup = s.sup := by unfold outputReturned; split <;> rfl
@[simp] theorem outputReturned_link (b : GainRamp) (s : State) : (outputReturned b s).link = s.link := by unfold outputReturned; split <;> rfl
@[simp] theorem outputReturned_free (b : GainRamp) (s : State) : (outputReturned b s).free = s.free := by unfold outputReturned; split <;> rfl
@[simp] theorem outputReturned_out (b : GainRamp) (s : State) : (outputReturned b s).out = s.out := by unfold outputReturned; split <;> rfl

/-! ### setShowState -/

@[simp] theorem setShowState_pending (st : ShowState) (s : State) : (setShowState st s).pending = s.pending := rfl
@[simp] theorem setShowState_power (st : ShowState) (s : State) : (setShowState st s).power = s.power := rfl
@[simp] theorem setShowState_path (st : ShowState) (s : State) : (setShowState st s).path = s.path := rfl
@[simp] theorem setShowState_clock (st : ShowState) (s : State) : (setShowState st s).clock = s.clock := rfl
@[simp] theorem setShowState_keys (st : ShowState) (s : State) : (setShowState st s).keys = s.keys := rfl
@[simp] theorem setShowState_secure (st : ShowState) (s : State) : (setShowState st s).secure = s.secure := rfl
@[simp] theorem setShowState_unpack (st : ShowState) (s : State) : (setShowState st s).unpack = s.unpack := rfl
@[simp] theorem setShowState_sound (st : ShowState) (s : State) : (setShowState st s).sound = s.sound := rfl
@[simp] theorem setShowState_cues (st : ShowState) (s : State) : (setShowState st s).cues = s.cues := rfl
@[simp] theorem setShowState_overlay (st : ShowState) (s : State) : (setShowState st s).overlay = s.overlay := rfl
@[simp] theorem setShowState_count (st : ShowState) (s : State) : (setShowState st s).count = s.count := rfl
@[simp] theorem setShowState_sup (st : ShowState) (s : State) : (setShowState st s).sup = s.sup := rfl
@[simp] theorem setShowState_free (st : ShowState) (s : State) : (setShowState st s).free = s.free := rfl
@[simp] theorem setShowState_out (st : ShowState) (s : State) : (setShowState st s).out = s.out := rfl

/-! ### clockIdle -/

@[simp] theorem clockIdle_pending (s : State) : (clockIdle s).pending = s.pending := rfl
@[simp] theorem clockIdle_power (s : State) : (clockIdle s).power = s.power := rfl
@[simp] theorem clockIdle_path (s : State) : (clockIdle s).path = s.path := rfl
@[simp] theorem clockIdle_ctl (s : State) : (clockIdle s).ctl = s.ctl := rfl
@[simp] theorem clockIdle_keys (s : State) : (clockIdle s).keys = s.keys := rfl
@[simp] theorem clockIdle_secure (s : State) : (clockIdle s).secure = s.secure := rfl
@[simp] theorem clockIdle_unpack (s : State) : (clockIdle s).unpack = s.unpack := rfl
@[simp] theorem clockIdle_sound (s : State) : (clockIdle s).sound = s.sound := rfl
@[simp] theorem clockIdle_cues (s : State) : (clockIdle s).cues = s.cues := rfl
@[simp] theorem clockIdle_overlay (s : State) : (clockIdle s).overlay = s.overlay := rfl
@[simp] theorem clockIdle_count (s : State) : (clockIdle s).count = s.count := rfl
@[simp] theorem clockIdle_sup (s : State) : (clockIdle s).sup = s.sup := rfl
@[simp] theorem clockIdle_link (s : State) : (clockIdle s).link = s.link := rfl
@[simp] theorem clockIdle_free (s : State) : (clockIdle s).free = s.free := rfl
@[simp] theorem clockIdle_out (s : State) : (clockIdle s).out = s.out := rfl

/-! ### holdShow -/

@[simp] theorem holdShow_pending (b : GainRamp) (s : State) : (holdShow b s).pending = s.pending := rfl
@[simp] theorem holdShow_power (b : GainRamp) (s : State) : (holdShow b s).power = s.power := rfl
@[simp] theorem holdShow_path (b : GainRamp) (s : State) : (holdShow b s).path = s.path := rfl
@[simp] theorem holdShow_keys (b : GainRamp) (s : State) : (holdShow b s).keys = s.keys := rfl
@[simp] theorem holdShow_secure (b : GainRamp) (s : State) : (holdShow b s).secure = s.secure := rfl
@[simp] theorem holdShow_unpack (b : GainRamp) (s : State) : (holdShow b s).unpack = s.unpack := rfl
@[simp] theorem holdShow_cues (b : GainRamp) (s : State) : (holdShow b s).cues = s.cues := rfl
@[simp] theorem holdShow_overlay (b : GainRamp) (s : State) : (holdShow b s).overlay = s.overlay := rfl
@[simp] theorem holdShow_count (b : GainRamp) (s : State) : (holdShow b s).count = s.count := rfl
@[simp] theorem holdShow_sup (b : GainRamp) (s : State) : (holdShow b s).sup = s.sup := rfl
@[simp] theorem holdShow_free (b : GainRamp) (s : State) : (holdShow b s).free = s.free := rfl
@[simp] theorem holdShow_out (b : GainRamp) (s : State) : (holdShow b s).out = s.out := rfl

/-! ### holdRequest -/

@[simp] theorem holdRequest_pending (b : GainRamp) (s : State) : (holdRequest b s).pending = s.pending := by unfold holdRequest; split <;> rfl
@[simp] theorem holdRequest_power (b : GainRamp) (s : State) : (holdRequest b s).power = s.power := by unfold holdRequest; split <;> rfl
@[simp] theorem holdRequest_path (b : GainRamp) (s : State) : (holdRequest b s).path = s.path := by unfold holdRequest; split <;> rfl
@[simp] theorem holdRequest_keys (b : GainRamp) (s : State) : (holdRequest b s).keys = s.keys := by unfold holdRequest; split <;> rfl
@[simp] theorem holdRequest_secure (b : GainRamp) (s : State) : (holdRequest b s).secure = s.secure := by unfold holdRequest; split <;> rfl
@[simp] theorem holdRequest_unpack (b : GainRamp) (s : State) : (holdRequest b s).unpack = s.unpack := by unfold holdRequest; split <;> rfl
@[simp] theorem holdRequest_cues (b : GainRamp) (s : State) : (holdRequest b s).cues = s.cues := by unfold holdRequest; split <;> rfl
@[simp] theorem holdRequest_overlay (b : GainRamp) (s : State) : (holdRequest b s).overlay = s.overlay := by unfold holdRequest; split <;> rfl
@[simp] theorem holdRequest_count (b : GainRamp) (s : State) : (holdRequest b s).count = s.count := by unfold holdRequest; split <;> rfl
@[simp] theorem holdRequest_sup (b : GainRamp) (s : State) : (holdRequest b s).sup = s.sup := by unfold holdRequest; split <;> rfl
@[simp] theorem holdRequest_free (b : GainRamp) (s : State) : (holdRequest b s).free = s.free := by unfold holdRequest; split <;> rfl
@[simp] theorem holdRequest_out (b : GainRamp) (s : State) : (holdRequest b s).out = s.out := by unfold holdRequest; split <;> rfl

/-! ### modFault -/

@[simp] theorem modFault_pending (k : FaultKind) (f : FaultEntry → FaultEntry) (s : State) : (modFault k f s).pending = s.pending := rfl
@[simp] theorem modFault_power (k : FaultKind) (f : FaultEntry → FaultEntry) (s : State) : (modFault k f s).power = s.power := rfl
@[simp] theorem modFault_path (k : FaultKind) (f : FaultEntry → FaultEntry) (s : State) : (modFault k f s).path = s.path := rfl
@[simp] theorem modFault_clock (k : FaultKind) (f : FaultEntry → FaultEntry) (s : State) : (modFault k f s).clock = s.clock := rfl
@[simp] theorem modFault_ctl (k : FaultKind) (f : FaultEntry → FaultEntry) (s : State) : (modFault k f s).ctl = s.ctl := rfl
@[simp] theorem modFault_keys (k : FaultKind) (f : FaultEntry → FaultEntry) (s : State) : (modFault k f s).keys = s.keys := rfl
@[simp] theorem modFault_secure (k : FaultKind) (f : FaultEntry → FaultEntry) (s : State) : (modFault k f s).secure = s.secure := rfl
@[simp] theorem modFault_unpack (k : FaultKind) (f : FaultEntry → FaultEntry) (s : State) : (modFault k f s).unpack = s.unpack := rfl
@[simp] theorem modFault_sound (k : FaultKind) (f : FaultEntry → FaultEntry) (s : State) : (modFault k f s).sound = s.sound := rfl
@[simp] theorem modFault_cues (k : FaultKind) (f : FaultEntry → FaultEntry) (s : State) : (modFault k f s).cues = s.cues := rfl
@[simp] theorem modFault_overlay (k : FaultKind) (f : FaultEntry → FaultEntry) (s : State) : (modFault k f s).overlay = s.overlay := rfl
@[simp] theorem modFault_count (k : FaultKind) (f : FaultEntry → FaultEntry) (s : State) : (modFault k f s).count = s.count := rfl
@[simp] theorem modFault_link (k : FaultKind) (f : FaultEntry → FaultEntry) (s : State) : (modFault k f s).link = s.link := rfl
@[simp] theorem modFault_free (k : FaultKind) (f : FaultEntry → FaultEntry) (s : State) : (modFault k f s).free = s.free := rfl
@[simp] theorem modFault_out (k : FaultKind) (f : FaultEntry → FaultEntry) (s : State) : (modFault k f s).out = s.out := rfl

/-! ### setDetector -/

@[simp] theorem setDetector_pending (k : FaultKind) (b : Bool) (s : State) : (setDetector k b s).pending = s.pending := by cases k <;> rfl
@[simp] theorem setDetector_power (k : FaultKind) (b : Bool) (s : State) : (setDetector k b s).power = s.power := by cases k <;> rfl
@[simp] theorem setDetector_path (k : FaultKind) (b : Bool) (s : State) : (setDetector k b s).path = s.path := by cases k <;> rfl
@[simp] theorem setDetector_keys (k : FaultKind) (b : Bool) (s : State) : (setDetector k b s).keys = s.keys := by cases k <;> rfl
@[simp] theorem setDetector_secure (k : FaultKind) (b : Bool) (s : State) : (setDetector k b s).secure = s.secure := by cases k <;> rfl
@[simp] theorem setDetector_cues (k : FaultKind) (b : Bool) (s : State) : (setDetector k b s).cues = s.cues := by cases k <;> rfl
@[simp] theorem setDetector_overlay (k : FaultKind) (b : Bool) (s : State) : (setDetector k b s).overlay = s.overlay := by cases k <;> rfl
@[simp] theorem setDetector_count (k : FaultKind) (b : Bool) (s : State) : (setDetector k b s).count = s.count := by cases k <;> rfl
@[simp] theorem setDetector_link (k : FaultKind) (b : Bool) (s : State) : (setDetector k b s).link = s.link := by cases k <;> rfl
@[simp] theorem setDetector_free (k : FaultKind) (b : Bool) (s : State) : (setDetector k b s).free = s.free := by cases k <;> rfl
@[simp] theorem setDetector_out (k : FaultKind) (b : Bool) (s : State) : (setDetector k b s).out = s.out := by cases k <;> rfl

/-! ### countRaise -/

@[simp] theorem countRaise_pending (k : FaultKind) (s : State) : (countRaise k s).pending = s.pending := rfl
@[simp] theorem countRaise_power (k : FaultKind) (s : State) : (countRaise k s).power = s.power := rfl
@[simp] theorem countRaise_path (k : FaultKind) (s : State) : (countRaise k s).path = s.path := rfl
@[simp] theorem countRaise_clock (k : FaultKind) (s : State) : (countRaise k s).clock = s.clock := rfl
@[simp] theorem countRaise_ctl (k : FaultKind) (s : State) : (countRaise k s).ctl = s.ctl := rfl
@[simp] theorem countRaise_keys (k : FaultKind) (s : State) : (countRaise k s).keys = s.keys := rfl
@[simp] theorem countRaise_secure (k : FaultKind) (s : State) : (countRaise k s).secure = s.secure := rfl
@[simp] theorem countRaise_unpack (k : FaultKind) (s : State) : (countRaise k s).unpack = s.unpack := rfl
@[simp] theorem countRaise_sound (k : FaultKind) (s : State) : (countRaise k s).sound = s.sound := rfl
@[simp] theorem countRaise_cues (k : FaultKind) (s : State) : (countRaise k s).cues = s.cues := rfl
@[simp] theorem countRaise_overlay (k : FaultKind) (s : State) : (countRaise k s).overlay = s.overlay := rfl
@[simp] theorem countRaise_count (k : FaultKind) (s : State) : (countRaise k s).count = s.count := rfl
@[simp] theorem countRaise_link (k : FaultKind) (s : State) : (countRaise k s).link = s.link := rfl
@[simp] theorem countRaise_free (k : FaultKind) (s : State) : (countRaise k s).free = s.free := rfl
@[simp] theorem countRaise_out (k : FaultKind) (s : State) : (countRaise k s).out = s.out := rfl

/-! ### flagFault -/

@[simp] theorem flagFault_pending (k : FaultKind) (s : State) : (flagFault k s).pending = s.pending := rfl
@[simp] theorem flagFault_power (k : FaultKind) (s : State) : (flagFault k s).power = s.power := rfl
@[simp] theorem flagFault_path (k : FaultKind) (s : State) : (flagFault k s).path = s.path := rfl
@[simp] theorem flagFault_clock (k : FaultKind) (s : State) : (flagFault k s).clock = s.clock := rfl
@[simp] theorem flagFault_ctl (k : FaultKind) (s : State) : (flagFault k s).ctl = s.ctl := rfl
@[simp] theorem flagFault_keys (k : FaultKind) (s : State) : (flagFault k s).keys = s.keys := rfl
@[simp] theorem flagFault_secure (k : FaultKind) (s : State) : (flagFault k s).secure = s.secure := rfl
@[simp] theorem flagFault_unpack (k : FaultKind) (s : State) : (flagFault k s).unpack = s.unpack := rfl
@[simp] theorem flagFault_sound (k : FaultKind) (s : State) : (flagFault k s).sound = s.sound := rfl
@[simp] theorem flagFault_cues (k : FaultKind) (s : State) : (flagFault k s).cues = s.cues := rfl
@[simp] theorem flagFault_overlay (k : FaultKind) (s : State) : (flagFault k s).overlay = s.overlay := rfl
@[simp] theorem flagFault_count (k : FaultKind) (s : State) : (flagFault k s).count = s.count := rfl
@[simp] theorem flagFault_free (k : FaultKind) (s : State) : (flagFault k s).free = s.free := rfl
@[simp] theorem flagFault_out (k : FaultKind) (s : State) : (flagFault k s).out = s.out := rfl

/-! ### blankFor -/

@[simp] theorem blankFor_pending (b : GainRamp) (n : Nat) (s : State) : (blankFor b n s).pending = s.pending := by unfold blankFor; split; rfl; split <;> simp
@[simp] theorem blankFor_power (b : GainRamp) (n : Nat) (s : State) : (blankFor b n s).power = s.power := by unfold blankFor; split; rfl; split <;> simp
@[simp] theorem blankFor_path (b : GainRamp) (n : Nat) (s : State) : (blankFor b n s).path = s.path := by unfold blankFor; split; rfl; split <;> simp
@[simp] theorem blankFor_clock (b : GainRamp) (n : Nat) (s : State) : (blankFor b n s).clock = s.clock := by unfold blankFor; split; rfl; split <;> simp
@[simp] theorem blankFor_ctl (b : GainRamp) (n : Nat) (s : State) : (blankFor b n s).ctl = s.ctl := by unfold blankFor; split; rfl; split <;> simp
@[simp] theorem blankFor_keys (b : GainRamp) (n : Nat) (s : State) : (blankFor b n s).keys = s.keys := by unfold blankFor; split; rfl; split <;> simp
@[simp] theorem blankFor_secure (b : GainRamp) (n : Nat) (s : State) : (blankFor b n s).secure = s.secure := by unfold blankFor; split; rfl; split <;> simp
@[simp] theorem blankFor_unpack (b : GainRamp) (n : Nat) (s : State) : (blankFor b n s).unpack = s.unpack := by unfold blankFor; split; rfl; split <;> simp
@[simp] theorem blankFor_cues (b : GainRamp) (n : Nat) (s : State) : (blankFor b n s).cues = s.cues := by unfold blankFor; split; rfl; split <;> simp
@[simp] theorem blankFor_overlay (b : GainRamp) (n : Nat) (s : State) : (blankFor b n s).overlay = s.overlay := by unfold blankFor; split; rfl; split <;> simp
@[simp] theorem blankFor_count (b : GainRamp) (n : Nat) (s : State) : (blankFor b n s).count = s.count := by unfold blankFor; split; rfl; split <;> simp
@[simp] theorem blankFor_link (b : GainRamp) (n : Nat) (s : State) : (blankFor b n s).link = s.link := by unfold blankFor; split; rfl; split <;> simp
@[simp] theorem blankFor_free (b : GainRamp) (n : Nat) (s : State) : (blankFor b n s).free = s.free := by unfold blankFor; split; rfl; split <;> simp
@[simp] theorem blankFor_out (b : GainRamp) (n : Nat) (s : State) : (blankFor b n s).out = s.out := by unfold blankFor; split; rfl; split <;> simp

/-! ### latchFault -/

@[simp] theorem latchFault_pending (b : GainRamp) (k : FaultKind) (s : State) : (latchFault b k s).pending = s.pending := by unfold latchFault; simp; try (split <;> simp)
@[simp] theorem latchFault_power (b : GainRamp) (k : FaultKind) (s : State) : (latchFault b k s).power = s.power := by unfold latchFault; simp; try (split <;> simp)
@[simp] theorem latchFault_path (b : GainRamp) (k : FaultKind) (s : State) : (latchFault b k s).path = s.path := by unfold latchFault; simp; try (split <;> simp)
@[simp] theorem latchFault_keys (b : GainRamp) (k : FaultKind) (s : State) : (latchFault b k s).keys = s.keys := by unfold latchFault; simp; try (split <;> simp)
@[simp] theorem latchFault_secure (b : GainRamp) (k : FaultKind) (s : State) : (latchFault b k s).secure = s.secure := by unfold latchFault; simp; try (split <;> simp)
@[simp] theorem latchFault_unpack (b : GainRamp) (k : FaultKind) (s : State) : (latchFault b k s).unpack = s.unpack := by unfold latchFault; simp; try (split <;> simp)
@[simp] theorem latchFault_cues (b : GainRamp) (k : FaultKind) (s : State) : (latchFault b k s).cues = s.cues := by unfold latchFault; simp; try (split <;> simp)
@[simp] theorem latchFault_overlay (b : GainRamp) (k : FaultKind) (s : State) : (latchFault b k s).overlay = s.overlay := by unfold latchFault; simp; try (split <;> simp)
@[simp] theorem latchFault_count (b : GainRamp) (k : FaultKind) (s : State) : (latchFault b k s).count = s.count := by unfold latchFault; simp; try (split <;> simp)
@[simp] theorem latchFault_free (b : GainRamp) (k : FaultKind) (s : State) : (latchFault b k s).free = s.free := by unfold latchFault; simp; try (split <;> simp)
@[simp] theorem latchFault_out (b : GainRamp) (k : FaultKind) (s : State) : (latchFault b k s).out = s.out := by unfold latchFault; simp; try (split <;> simp)

/-! ### raiseFault -/

@[simp] theorem raiseFault_pending (b : GainRamp) (k : FaultKind) (s : State) : (raiseFault b k s).pending = s.pending := by unfold raiseFault; split <;> simp
@[simp] theorem raiseFault_power (b : GainRamp) (k : FaultKind) (s : State) : (raiseFault b k s).power = s.power := by unfold raiseFault; split <;> simp
@[simp] theorem raiseFault_path (b : GainRamp) (k : FaultKind) (s : State) : (raiseFault b k s).path = s.path := by unfold raiseFault; split <;> simp
@[simp] theorem raiseFault_keys (b : GainRamp) (k : FaultKind) (s : State) : (raiseFault b k s).keys = s.keys := by unfold raiseFault; split <;> simp
@[simp] theorem raiseFault_secure (b : GainRamp) (k : FaultKind) (s : State) : (raiseFault b k s).secure = s.secure := by unfold raiseFault; split <;> simp
@[simp] theorem raiseFault_unpack (b : GainRamp) (k : FaultKind) (s : State) : (raiseFault b k s).unpack = s.unpack := by unfold raiseFault; split <;> simp
@[simp] theorem raiseFault_cues (b : GainRamp) (k : FaultKind) (s : State) : (raiseFault b k s).cues = s.cues := by unfold raiseFault; split <;> simp
@[simp] theorem raiseFault_overlay (b : GainRamp) (k : FaultKind) (s : State) : (raiseFault b k s).overlay = s.overlay := by unfold raiseFault; split <;> simp
@[simp] theorem raiseFault_count (b : GainRamp) (k : FaultKind) (s : State) : (raiseFault b k s).count = s.count := by unfold raiseFault; split <;> simp
@[simp] theorem raiseFault_free (b : GainRamp) (k : FaultKind) (s : State) : (raiseFault b k s).free = s.free := by unfold raiseFault; split <;> simp
@[simp] theorem raiseFault_out (b : GainRamp) (k : FaultKind) (s : State) : (raiseFault b k s).out = s.out := by unfold raiseFault; split <;> simp

/-! ### raiseCondition -/

@[simp] theorem raiseCondition_pending (b : GainRamp) (k : FaultKind) (s : State) : (raiseCondition b k s).pending = s.pending := by unfold raiseCondition; split <;> simp
@[simp] theorem raiseCondition_power (b : GainRamp) (k : FaultKind) (s : State) : (raiseCondition b k s).power = s.power := by unfold raiseCondition; split <;> simp
@[simp] theorem raiseCondition_path (b : GainRamp) (k : FaultKind) (s : State) : (raiseCondition b k s).path = s.path := by unfold raiseCondition; split <;> simp
@[simp] theorem raiseCondition_keys (b : GainRamp) (k : FaultKind) (s : State) : (raiseCondition b k s).keys = s.keys := by unfold raiseCondition; split <;> simp
@[simp] theorem raiseCondition_secure (b : GainRamp) (k : FaultKind) (s : State) : (raiseCondition b k s).secure = s.secure := by unfold raiseCondition; split <;> simp
@[simp] theorem raiseCondition_cues (b : GainRamp) (k : FaultKind) (s : State) : (raiseCondition b k s).cues = s.cues := by unfold raiseCondition; split <;> simp
@[simp] theorem raiseCondition_overlay (b : GainRamp) (k : FaultKind) (s : State) : (raiseCondition b k s).overlay = s.overlay := by unfold raiseCondition; split <;> simp
@[simp] theorem raiseCondition_count (b : GainRamp) (k : FaultKind) (s : State) : (raiseCondition b k s).count = s.count := by unfold raiseCondition; split <;> simp
@[simp] theorem raiseCondition_free (b : GainRamp) (k : FaultKind) (s : State) : (raiseCondition b k s).free = s.free := by unfold raiseCondition; split <;> simp
@[simp] theorem raiseCondition_out (b : GainRamp) (k : FaultKind) (s : State) : (raiseCondition b k s).out = s.out := by unfold raiseCondition; split <;> simp

/-! ### withdraw -/

@[simp] theorem withdraw_pending (k : FaultKind) (s : State) : (withdraw k s).pending = s.pending := by unfold withdraw; simp
@[simp] theorem withdraw_power (k : FaultKind) (s : State) : (withdraw k s).power = s.power := by unfold withdraw; simp
@[simp] theorem withdraw_path (k : FaultKind) (s : State) : (withdraw k s).path = s.path := by unfold withdraw; simp
@[simp] theorem withdraw_keys (k : FaultKind) (s : State) : (withdraw k s).keys = s.keys := by unfold withdraw; simp
@[simp] theorem withdraw_secure (k : FaultKind) (s : State) : (withdraw k s).secure = s.secure := by unfold withdraw; simp
@[simp] theorem withdraw_cues (k : FaultKind) (s : State) : (withdraw k s).cues = s.cues := by unfold withdraw; simp
@[simp] theorem withdraw_overlay (k : FaultKind) (s : State) : (withdraw k s).overlay = s.overlay := by unfold withdraw; simp
@[simp] theorem withdraw_count (k : FaultKind) (s : State) : (withdraw k s).count = s.count := by unfold withdraw; simp
@[simp] theorem withdraw_link (k : FaultKind) (s : State) : (withdraw k s).link = s.link := by unfold withdraw; simp
@[simp] theorem withdraw_free (k : FaultKind) (s : State) : (withdraw k s).free = s.free := by unfold withdraw; simp
@[simp] theorem withdraw_out (k : FaultKind) (s : State) : (withdraw k s).out = s.out := by unfold withdraw; simp

/-! ### startWrite -/

@[simp] theorem startWrite_pending (w : StoreWrite) (s : State) : (startWrite w s).pending = s.pending := rfl
@[simp] theorem startWrite_power (w : StoreWrite) (s : State) : (startWrite w s).power = s.power := rfl
@[simp] theorem startWrite_path (w : StoreWrite) (s : State) : (startWrite w s).path = s.path := rfl
@[simp] theorem startWrite_clock (w : StoreWrite) (s : State) : (startWrite w s).clock = s.clock := rfl
@[simp] theorem startWrite_ctl (w : StoreWrite) (s : State) : (startWrite w s).ctl = s.ctl := rfl
@[simp] theorem startWrite_keys (w : StoreWrite) (s : State) : (startWrite w s).keys = s.keys := rfl
@[simp] theorem startWrite_secure (w : StoreWrite) (s : State) : (startWrite w s).secure = s.secure := rfl
@[simp] theorem startWrite_unpack (w : StoreWrite) (s : State) : (startWrite w s).unpack = s.unpack := rfl
@[simp] theorem startWrite_sound (w : StoreWrite) (s : State) : (startWrite w s).sound = s.sound := rfl
@[simp] theorem startWrite_cues (w : StoreWrite) (s : State) : (startWrite w s).cues = s.cues := rfl
@[simp] theorem startWrite_overlay (w : StoreWrite) (s : State) : (startWrite w s).overlay = s.overlay := rfl
@[simp] theorem startWrite_sup (w : StoreWrite) (s : State) : (startWrite w s).sup = s.sup := rfl
@[simp] theorem startWrite_link (w : StoreWrite) (s : State) : (startWrite w s).link = s.link := rfl
@[simp] theorem startWrite_free (w : StoreWrite) (s : State) : (startWrite w s).free = s.free := rfl
@[simp] theorem startWrite_out (w : StoreWrite) (s : State) : (startWrite w s).out = s.out := rfl

/-! ### setRam -/

@[simp] theorem setRam_pending (r : CountImage) (s : State) : (setRam r s).pending = s.pending := rfl
@[simp] theorem setRam_power (r : CountImage) (s : State) : (setRam r s).power = s.power := rfl
@[simp] theorem setRam_path (r : CountImage) (s : State) : (setRam r s).path = s.path := rfl
@[simp] theorem setRam_clock (r : CountImage) (s : State) : (setRam r s).clock = s.clock := rfl
@[simp] theorem setRam_ctl (r : CountImage) (s : State) : (setRam r s).ctl = s.ctl := rfl
@[simp] theorem setRam_keys (r : CountImage) (s : State) : (setRam r s).keys = s.keys := rfl
@[simp] theorem setRam_secure (r : CountImage) (s : State) : (setRam r s).secure = s.secure := rfl
@[simp] theorem setRam_unpack (r : CountImage) (s : State) : (setRam r s).unpack = s.unpack := rfl
@[simp] theorem setRam_sound (r : CountImage) (s : State) : (setRam r s).sound = s.sound := rfl
@[simp] theorem setRam_cues (r : CountImage) (s : State) : (setRam r s).cues = s.cues := rfl
@[simp] theorem setRam_overlay (r : CountImage) (s : State) : (setRam r s).overlay = s.overlay := rfl
@[simp] theorem setRam_sup (r : CountImage) (s : State) : (setRam r s).sup = s.sup := rfl
@[simp] theorem setRam_link (r : CountImage) (s : State) : (setRam r s).link = s.link := rfl
@[simp] theorem setRam_free (r : CountImage) (s : State) : (setRam r s).free = s.free := rfl
@[simp] theorem setRam_out (r : CountImage) (s : State) : (setRam r s).out = s.out := rfl

/-! ### loadRam -/

@[simp] theorem loadRam_pending (s : State) : (loadRam s).pending = s.pending := by unfold loadRam; simp only []; split <;> rfl
@[simp] theorem loadRam_power (s : State) : (loadRam s).power = s.power := by unfold loadRam; simp only []; split <;> rfl
@[simp] theorem loadRam_path (s : State) : (loadRam s).path = s.path := by unfold loadRam; simp only []; split <;> rfl
@[simp] theorem loadRam_clock (s : State) : (loadRam s).clock = s.clock := by unfold loadRam; simp only []; split <;> rfl
@[simp] theorem loadRam_ctl (s : State) : (loadRam s).ctl = s.ctl := by unfold loadRam; simp only []; split <;> rfl
@[simp] theorem loadRam_keys (s : State) : (loadRam s).keys = s.keys := by unfold loadRam; simp only []; split <;> rfl
@[simp] theorem loadRam_secure (s : State) : (loadRam s).secure = s.secure := by unfold loadRam; simp only []; split <;> rfl
@[simp] theorem loadRam_unpack (s : State) : (loadRam s).unpack = s.unpack := by unfold loadRam; simp only []; split <;> rfl
@[simp] theorem loadRam_sound (s : State) : (loadRam s).sound = s.sound := by unfold loadRam; simp only []; split <;> rfl
@[simp] theorem loadRam_cues (s : State) : (loadRam s).cues = s.cues := by unfold loadRam; simp only []; split <;> rfl
@[simp] theorem loadRam_overlay (s : State) : (loadRam s).overlay = s.overlay := by unfold loadRam; simp only []; split <;> rfl
@[simp] theorem loadRam_sup (s : State) : (loadRam s).sup = s.sup := by unfold loadRam; simp only []; split <;> rfl
@[simp] theorem loadRam_free (s : State) : (loadRam s).free = s.free := by unfold loadRam; simp only []; split <;> rfl
@[simp] theorem loadRam_out (s : State) : (loadRam s).out = s.out := by unfold loadRam; simp only []; split <;> rfl

/-! ### expireKeys -/

@[simp] theorem expireKeys_pending (s : State) : (expireKeys s).pending = s.pending := by unfold expireKeys; split <;> rfl
@[simp] theorem expireKeys_power (s : State) : (expireKeys s).power = s.power := by unfold expireKeys; split <;> rfl
@[simp] theorem expireKeys_path (s : State) : (expireKeys s).path = s.path := by unfold expireKeys; split <;> rfl
@[simp] theorem expireKeys_clock (s : State) : (expireKeys s).clock = s.clock := by unfold expireKeys; split <;> rfl
@[simp] theorem expireKeys_ctl (s : State) : (expireKeys s).ctl = s.ctl := by unfold expireKeys; split <;> rfl
@[simp] theorem expireKeys_secure (s : State) : (expireKeys s).secure = s.secure := by unfold expireKeys; split <;> rfl
@[simp] theorem expireKeys_unpack (s : State) : (expireKeys s).unpack = s.unpack := by unfold expireKeys; split <;> rfl
@[simp] theorem expireKeys_sound (s : State) : (expireKeys s).sound = s.sound := by unfold expireKeys; split <;> rfl
@[simp] theorem expireKeys_cues (s : State) : (expireKeys s).cues = s.cues := by unfold expireKeys; split <;> rfl
@[simp] theorem expireKeys_overlay (s : State) : (expireKeys s).overlay = s.overlay := by unfold expireKeys; split <;> rfl
@[simp] theorem expireKeys_count (s : State) : (expireKeys s).count = s.count := by unfold expireKeys; split <;> rfl
@[simp] theorem expireKeys_sup (s : State) : (expireKeys s).sup = s.sup := by unfold expireKeys; split <;> rfl
@[simp] theorem expireKeys_link (s : State) : (expireKeys s).link = s.link := by unfold expireKeys; split <;> rfl
@[simp] theorem expireKeys_free (s : State) : (expireKeys s).free = s.free := by unfold expireKeys; split <;> rfl
@[simp] theorem expireKeys_out (s : State) : (expireKeys s).out = s.out := by unfold expireKeys; split <;> rfl

end Sys2Proof.Machine
end

