-- ==== Sys2Proof/Laws/Tables.lean ====
section
/-! SUPPORT. Laws/Tables.lean: reading a table after an entry is replaced or every entry is mapped, the fault table after a change
of one kind, and the permutation that a shuffle is. -/

namespace Sys2Proof.Machine

/-! ### Tables -/

@[simp] theorem vput_getElem {α : Type} {n : Nat} (v : Vector α n) (i : Fin n) (x : α) (j : Nat) (h : j < n) :
    (vput v i x)[j] = if i.val = j then x else v[j] := by
  simp [vput, Vector.getElem_set]

theorem vput_get {α : Type} {n : Nat} (v : Vector α n) (i j : Fin n) (x : α) :
    (vput v i x)[j] = if i = j then x else v[j] := by
  simp [Fin.ext_iff]

theorem vput_get_self {α : Type} {n : Nat} (v : Vector α n) (i : Fin n) (x : α) : (vput v i x)[i] = x := by simp

theorem vput_get_other {α : Type} {n : Nat} (v : Vector α n) {i j : Fin n} (x : α) (h : i ≠ j) : (vput v i x)[j] = v[j] := by
  rw [vput_get, if_neg h]

@[simp] theorem vput_vput {α : Type} {n : Nat} (v : Vector α n) (i : Fin n) (x y : α) : vput (vput v i x) i y = vput v i y :=
  Vector.ext fun j hj => by simp only [vput_getElem]; split <;> rfl

/-- Two tables that agree at every index are equal. -/
theorem table_ext {α : Type} {n : Nat} {v w : Vector α n} (h : ∀ i : Fin n, v[i] = w[i]) : v = w :=
  Vector.ext fun i hi => h ⟨i, hi⟩

/-- An entry replaced by what it holds leaves the table. -/
theorem vput_same {α : Type} {n : Nat} (v : Vector α n) (i : Fin n) : vput v i v[i] = v :=
  table_ext fun j => by
    rw [vput_get]; split
    · rename_i h; rw [h]
    · rfl

@[simp] theorem vmap_getElem {α β : Type} {n : Nat} (f : α → β) (v : Vector α n) (i : Nat) (h : i < n) :
    (vmap f v)[i] = f v[i] := by
  simp [vmap]

/-- A table mapped is the table of the mapped entries. -/
theorem vmap_eq_ofFn {α β : Type} {n : Nat} (f : α → β) (v : Vector α n) : vmap f v = Vector.ofFn fun i : Fin n => f v[i] :=
  table_ext fun i => by simp

@[simp] theorem vofFn_getElem {α : Type} {n : Nat} (f : Fin n → α) (i : Nat) (h : i < n) : (vofFn f)[i] = f ⟨i, h⟩ := by
  simp [vofFn]

theorem vofFn_eq_ofFn {α : Type} {n : Nat} (f : Fin n → α) : vofFn f = Vector.ofFn f := table_ext fun i => by simp

/-! ### The fault table -/

theorem faultIndex_injective {k m : FaultKind} (h : faultIndex k = faultIndex m) : k = m := by
  revert h; cases k <;> cases m <;> decide

theorem faultOf_modFault (k m : FaultKind) (f : FaultEntry → FaultEntry) (s : State) :
    faultOf (modFault k f s) m = if k = m then f (faultOf s k) else faultOf s m := by
  unfold faultOf modFault
  simp only [setSup_sup, vput_get]
  by_cases h : k = m
  · subst h; simp [faultOf]
  · rw [if_neg h, if_neg fun e => h (faultIndex_injective e)]

@[simp] theorem faultOf_modFault_self (k : FaultKind) (f : FaultEntry → FaultEntry) (s : State) :
    faultOf (modFault k f s) k = f (faultOf s k) := by simp [faultOf_modFault]

@[simp] theorem policyOfKind_modFault (k m : FaultKind) (f : FaultEntry → FaultEntry) (s : State) :
    policyOfKind (modFault k f s) m = policyOfKind s m := rfl

/-- States whose fault tables agree have the same entries. -/
theorem faultOf_congr {s t : State} (h : s.sup.faults = t.sup.faults) (k : FaultKind) : faultOf s k = faultOf t k := by
  simp [faultOf, h]

theorem mem_allKinds (k : FaultKind) : k ∈ allKinds := by cases k <;> decide

theorem allKinds_nodup : allKinds.Nodup := by decide

/-- The latched set is not empty exactly when some kind is in it (R148). -/
theorem anyLatched_iff (s : State) : anyLatched s = true ↔ ∃ k, (faultOf s k).latched = true := by
  unfold anyLatched
  rw [List.any_eq_true]
  exact ⟨fun ⟨k, _, h⟩ => ⟨k, h⟩, fun ⟨k, h⟩ => ⟨k, mem_allKinds k, h⟩⟩

/-- The output condition depends on the fault table and the countdown alone (R148). -/
theorem outputCondition_congr {s t : State} (hf : s.sup.faults = t.sup.faults) (hc : s.sup.countdown = t.sup.countdown) :
    outputCondition s = outputCondition t := by
  simp [outputCondition, anyLatched, faultOf, hf, hc]

/-! ### The free order -/

/-- A shuffle is a permutation, whatever the code. -/
theorem shuffle_perm {α : Type} (l : List α) : ∀ n, (shuffle l n).Perm l := by
  induction l with
  | nil => intro n; exact List.Perm.refl _
  | cons x xs ih =>
    intro n
    refine (List.perm_insertIdx x _ ?_).trans ((ih _).cons x)
    have : (shuffle xs (n / (xs.length + 1))).length = xs.length := (ih _).length_eq
    have := Nat.mod_lt n (Nat.zero_lt_succ xs.length)
    simp only [Nat.succ_eq_add_one] at this
    omega

/-- A law that each reaction of a list keeps is kept by the advance, in every order. -/
theorem advance_keeps {P : State → Prop} {reactions : List Reaction} {s : State}
    (h0 : P (takeAdvance (s.setFree (s.free + 1))))
    (hr : ∀ r ∈ reactions, ∀ t, P t → P (react s.sound.ramp t r)) : P (advance reactions s) := by
  unfold advance advanceIn
  have hmem : ∀ r ∈ shuffle reactions (Config.advanceOrder s.free), r ∈ reactions :=
    fun r h => (shuffle_perm _ _).mem_iff.mp h
  generalize shuffle reactions (Config.advanceOrder s.free) = order at hmem
  have key : ∀ (l : List Reaction) (t : State), (∀ r ∈ l, r ∈ reactions) → P t → P (l.foldl (react s.sound.ramp) t) := by
    intro l
    induction l with
    | nil => intro t _ h; exact h
    | cons r rs ih =>
      intro t hm ht
      exact ih _ (fun q hq => hm q (List.mem_cons_of_mem _ hq)) (hr r (hm r List.mem_cons_self) t ht)
  exact key order _ hmem h0

end Sys2Proof.Machine
end

