-- ==== Sys2Proof/Laws/Raise.lean ====
section
/-! SUPPORT. Laws/Raise.lean: what raising a fault kind and withdrawing a condition do, said once (R145, R147, R148, R151): a raise
leaves the state `afterRaise` writes out, and the facts below are read off it. -/

namespace Sys2Proof.Machine

/-! ### The parts of a raise -/

theorem modFault_modFault (k : FaultKind) (f g : FaultEntry → FaultEntry) (s : State) :
    modFault k g (modFault k f s) = modFault k (fun e => g (f e)) s := by
  simp [modFault, faultOf, State.setSup]

theorem modFault_setEvent (k : FaultKind) (f : FaultEntry → FaultEntry) (e : LinkEvent) (s : State) :
    modFault k f (setEvent e s) = setEvent e (modFault k f s) := rfl

theorem anyLatched_modFault {k : FaultKind} {f : FaultEntry → FaultEntry} (h : ∀ e, (f e).latched = e.latched) (s : State) :
    anyLatched (modFault k f s) = anyLatched s := by
  unfold anyLatched
  congr 1; funext m
  rw [faultOf_modFault]; split
  · rename_i e; subst e; exact h _
  · rfl

theorem outputCondition_modFault {k : FaultKind} {f : FaultEntry → FaultEntry} (h : ∀ e, (f e).latched = e.latched)
    (s : State) : outputCondition (modFault k f s) = outputCondition s := by
  unfold outputCondition; rw [anyLatched_modFault h]; rfl

/-- The entry after the count and the flag. -/
def flaggedEntry (k : FaultKind) (e : FaultEntry) : FaultEntry :=
  { e with flag := true, raises := Nat.min (e.raises + 1) 255, condition := e.condition || isConditionKind k }

/-- The state after the count and the flag. -/
def flaggedState (k : FaultKind) (s : State) : State := setEvent .fault (modFault k (flaggedEntry k) s)

theorem flagFault_countRaise (k : FaultKind) (s : State) : flagFault k (countRaise k s) = flaggedState k s := by
  unfold flagFault countRaise flaggedState; rw [modFault_modFault]; rfl

theorem anyLatched_flaggedState (k : FaultKind) (s : State) : anyLatched (flaggedState k s) = anyLatched s :=
  anyLatched_modFault (f := flaggedEntry k) (fun _ => rfl) s

theorem outputCondition_flaggedState (k : FaultKind) (s : State) :
    outputCondition (flaggedState k s) = outputCondition s := outputCondition_modFault (f := flaggedEntry k) (fun _ => rfl) s

theorem isPrimed_flaggedState (k : FaultKind) (s : State) : isPrimed (flaggedState k s) = isPrimed s := rfl

theorem not_open_of_latched {s : State} (h : anyLatched s = true) : outputCondition s ≠ .openOutput := by
  simp [outputCondition, h]

/-- The ramp toward silence as `startRamp` leaves it. -/
theorem startRamp_sound (b : GainRamp) (g : RampTarget) (s : State) :
    startRamp b g s = { s with sound := { s.sound with ramp := rampTo { s.sound with ramp := b } g } } := rfl

/-- A TIMED blank as one state (R147). -/
theorem blankFor_eq (b : GainRamp) (n : Nat) (s : State) : blankFor b n s = { s with
    sup := { s.sup with countdown := if anyLatched s = false then Nat.max s.sup.countdown n else s.sup.countdown }
    sound := { s.sound with
      ramp := if outputCondition s = .openOutput ∧ isPrimed s = true then rampTo { s.sound with ramp := b } .silence
        else s.sound.ramp } } := by
  unfold blankFor outputLeft
  cases hl : anyLatched s
  · by_cases ho : outputCondition s = .openOutput
    · cases hp : isPrimed s <;> simp [ho, isPrimed, startRamp_sound, State.setSup] at hp ⊢ <;> simp [hp]
    · simp [ho, State.setSup]
  · simp [not_open_of_latched hl]

/-- The Supervisor's hold request as one state (R48, R151). -/
theorem holdRequest_eq (b : GainRamp) (s : State) : holdRequest b s = { s with
    ctl := if s.ctl.state = .running then { s.ctl with state := .held } else s.ctl
    clock := if s.ctl.state = .running then { s.clock with substate := .idle, anchorDeadline := none } else s.clock
    link := { s.link with
      eventPending := s.link.eventPending ||| (if s.ctl.state = .running then 2#7 else 0#7) }
    sound := { s.sound with
      ramp := if s.ctl.state = .running then rampTo { s.sound with ramp := b } .silence else s.sound.ramp
      activeMask := if s.ctl.state = .running then s.sound.pendingMask else s.sound.activeMask } } := by
  unfold holdRequest isRunning
  by_cases h : s.ctl.state = .running
  · simp only [h, if_true, beq_self_eq_true]; rfl
  · simp [h]

/-! ### The raise as one state -/

/-- A raise leaves the state that `afterRaise` writes out (R147, R151). -/
theorem raiseFault_eq (b : GainRamp) (k : FaultKind) (s : State) : raiseFault b k s = afterRaise b k s := by
  unfold raiseFault
  cases h : (policyOfKind s k).policy <;> dsimp only
  · simp [afterRaise, raisedEntry, h, countRaise, modFault, State.setSup, satInc, Config.max8]
  · rw [flagFault_countRaise]
    simp [afterRaise, raisedEntry, h, modFault, State.setSup, flaggedState, flaggedEntry, setEvent, State.setLink, eventBit]
  · rw [flagFault_countRaise, blankFor_eq, anyLatched_flaggedState, outputCondition_flaggedState, isPrimed_flaggedState]
    simp [afterRaise, raisedEntry, h, modFault, State.setSup, flaggedState, flaggedEntry, setEvent, State.setLink, eventBit]
  · rw [flagFault_countRaise]
    unfold latchFault outputLeft
    rw [outputCondition_flaggedState, flaggedState, modFault_setEvent, modFault_modFault]
    dsimp only
    rw [show isPrimed (setEvent .fault (modFault k (fun e => { flaggedEntry k e with latched := true }) s)) = isPrimed s from rfl,
      holdRequest_eq]
    by_cases ho : outputCondition s = .openOutput <;> cases hp : isPrimed s <;> by_cases hr : s.ctl.state = .running <;>
      simp [afterRaise, raisedEntry, h, ho, hp, hr, modFault, State.setSup, flaggedEntry, setEvent, State.setLink, eventBit,
        startRamp_sound]

/-! ### What a raise does, field by field -/

/-- A raise changes the entry of its own kind alone. -/
theorem raiseFault_faultOf (b : GainRamp) (k m : FaultKind) (s : State) :
    faultOf (raiseFault b k s) m =
      if k = m then raisedEntry (policyOfKind s k).policy k (faultOf s k) else faultOf s m := by
  rw [raiseFault_eq, ← faultOf_modFault k m fun _ => raisedEntry (policyOfKind s k).policy k (faultOf s k)]; rfl

theorem raiseFault_raises (b : GainRamp) (k : FaultKind) (s : State) :
    (faultOf (raiseFault b k s) k).raises = Nat.min ((faultOf s k).raises + 1) 255 := by
  rw [raiseFault_faultOf, if_pos rfl]; rfl

theorem raiseFault_condition (b : GainRamp) (k m : FaultKind) (s : State) :
    (faultOf (raiseFault b k s) m).condition = ((faultOf s m).condition || (decide (k = m) && isConditionKind k)) := by
  rw [raiseFault_faultOf]; split
  · rename_i h; subst h; simp [raisedEntry]
  · rename_i h; simp [h]

/-- A raise leaves every policy and the watchdog. -/
theorem raiseFault_policies (b : GainRamp) (k : FaultKind) (s : State) :
    (raiseFault b k s).sup.policies = s.sup.policies ∧ (raiseFault b k s).sup.watchdog = s.sup.watchdog := by
  rw [raiseFault_eq]; exact ⟨rfl, rfl⟩

/-- The countdown moves under TIMED alone, and not under a latch (R147). -/
theorem raiseFault_countdown_eq (b : GainRamp) (k : FaultKind) (s : State) : (raiseFault b k s).sup.countdown =
    if (policyOfKind s k).policy = .timed ∧ anyLatched s = false then
      Nat.max s.sup.countdown (policyOfKind s k).blank else s.sup.countdown := by rw [raiseFault_eq]; rfl

theorem raiseFault_countdown (b : GainRamp) (k : FaultKind) (s : State) (h : (policyOfKind s k).policy ≠ .timed) :
    (raiseFault b k s).sup.countdown = s.sup.countdown := by
  rw [raiseFault_countdown_eq, if_neg fun c => h c.1]

/-- What a raise can do to the show: nothing, or hold a RUNNING one under LATCH (R151). -/
theorem raiseFault_show (b : GainRamp) (k : FaultKind) (s : State) :
    let held : Bool := (policyOfKind s k).policy = .latch && s.ctl.state = .running
    (raiseFault b k s).ctl = (if held then { s.ctl with state := .held } else s.ctl) ∧
      (raiseFault b k s).clock = if held then { s.clock with substate := .idle, anchorDeadline := none } else s.clock := by
  rw [raiseFault_eq]; exact ⟨rfl, rfl⟩

/-- A raise under another policy than LATCH leaves the show and the Show Clock. -/
theorem raiseFault_not_latch (b : GainRamp) (k : FaultKind) (s : State) (h : (policyOfKind s k).policy ≠ .latch) :
    (raiseFault b k s).ctl = s.ctl ∧ (raiseFault b k s).clock = s.clock := by
  simpa [h] using raiseFault_show b k s

/-- A raise under LATCH holds a RUNNING show and leaves any other (R151). -/
theorem raiseFault_latch (b : GainRamp) (k : FaultKind) (s : State) (h : (policyOfKind s k).policy = .latch) :
    (s.ctl.state = .running → (raiseFault b k s).ctl = { s.ctl with state := .held } ∧
      (raiseFault b k s).clock = { s.clock with substate := .idle, anchorDeadline := none }) ∧
    (s.ctl.state ≠ .running → (raiseFault b k s).ctl = s.ctl ∧ (raiseFault b k s).clock = s.clock) :=
  ⟨fun hs => by simpa [h, hs] using raiseFault_show b k s, fun hs => by simpa [h, hs] using raiseFault_show b k s⟩

theorem raiseFault_ctl (b : GainRamp) (k : FaultKind) (s : State) :
    ((raiseFault b k s).ctl = s.ctl ∧ (raiseFault b k s).clock = s.clock) ∨
    (s.ctl.state = .running ∧ (raiseFault b k s).ctl = { s.ctl with state := .held } ∧
      (raiseFault b k s).clock = { s.clock with substate := .idle, anchorDeadline := none }) := by
  by_cases h : (policyOfKind s k).policy = .latch
  · by_cases hs : s.ctl.state = .running
    · exact .inr ⟨hs, (raiseFault_latch b k s h).1 hs⟩
    · exact .inl ((raiseFault_latch b k s h).2 hs)
  · exact .inl (raiseFault_not_latch b k s h)

/-- A raise under LATCH leaves the output BLANK_LATCHED (R148). -/
theorem raiseFault_latched (b : GainRamp) (k : FaultKind) (s : State) (h : (policyOfKind s k).policy = .latch) :
    outputCondition (raiseFault b k s) = .blankLatched := by
  have : anyLatched (raiseFault b k s) = true :=
    (anyLatched_iff _).mpr ⟨k, by rw [raiseFault_faultOf, if_pos rfl, h]; simp [raisedEntry]⟩
  simp [outputCondition, this]

/-- A latch stands after a raise when it stood before it. -/
theorem raiseFault_keepsLatch (b : GainRamp) (k : FaultKind) {s : State} (h : anyLatched s = true) :
    anyLatched (raiseFault b k s) = true := by
  obtain ⟨m, hm⟩ := (anyLatched_iff s).mp h
  refine (anyLatched_iff _).mpr ⟨m, ?_⟩
  rw [raiseFault_faultOf]; split
  · rename_i e; subst e; simp [raisedEntry, hm]
  · exact hm

/-- A raise under REPORT or IGNORE leaves the output as it was. -/
theorem raiseFault_output (b : GainRamp) (k : FaultKind) (s : State) (ht : (policyOfKind s k).policy ≠ .timed)
    (hl : (policyOfKind s k).policy ≠ .latch) : outputCondition (raiseFault b k s) = outputCondition s := by
  have e : anyLatched (raiseFault b k s) = anyLatched s := by
    unfold anyLatched; congr 1; funext m
    rw [raiseFault_faultOf]; split
    · rename_i e; subst e; simp [raisedEntry, hl]
    · rfl
  unfold outputCondition; rw [e, raiseFault_countdown _ _ _ ht]

/-! ### What a raise leaves of the link and the sound -/

/-- A link after events have been set, and nothing else. -/
def EventsAdded (l m : Link) : Prop := ∃ x : BitVec 7, m = { l with eventPending := l.eventPending ||| x }

theorem EventsAdded.refl (l : Link) : EventsAdded l l := ⟨0#7, by simp⟩

theorem EventsAdded.trans {l m n : Link} (h : EventsAdded l m) (g : EventsAdded m n) : EventsAdded l n := by
  obtain ⟨x, rfl⟩ := h; obtain ⟨y, rfl⟩ := g; exact ⟨x ||| y, by simp [BitVec.or_assoc]⟩

theorem EventsAdded.getLsbD {l m : Link} (h : EventsAdded l m) {e : Nat} (he : l.eventPending.getLsbD e = true) :
    m.eventPending.getLsbD e = true := by
  obtain ⟨x, rfl⟩ := h; simp [he]

theorem setEvent_adds (e : LinkEvent) (s : State) : EventsAdded s.link (setEvent e s).link := ⟨eventBit e, rfl⟩

/-- A raise sets events on the link, and changes nothing else of it. -/
theorem raiseFault_link (b : GainRamp) (k : FaultKind) (s : State) : EventsAdded s.link (raiseFault b k s).link := by
  rw [raiseFault_eq]
  exact ⟨(if (policyOfKind s k).policy = .ignore then 0#7 else 1#7) |||
    (if (decide ((policyOfKind s k).policy = .latch) && decide (s.ctl.state = .running)) = true then 2#7 else 0#7),
    by rw [← BitVec.or_assoc]; rfl⟩

/-- A raise under another policy than IGNORE sets the flag and the FAULT event. -/
theorem raiseFault_flag (b : GainRamp) (k : FaultKind) (s : State) (h : (policyOfKind s k).policy ≠ .ignore) :
    (faultOf (raiseFault b k s) k).flag = true ∧ (raiseFault b k s).link.eventPending.getLsbD 0 = true := by
  refine ⟨by rw [raiseFault_faultOf, if_pos rfl]; simp [raisedEntry, h], ?_⟩
  rw [raiseFault_eq]; simp [afterRaise, h]

/-- A sound state in which ramps were started and the mask was perhaps activated, and nothing else was changed. -/
def RampsOnly (x y : Sound) : Prop :=
  ∃ ramp mask, (mask = x.activeMask ∨ mask = x.pendingMask) ∧ y = { x with ramp := ramp, activeMask := mask }

/-- A raise starts ramps and activates the mask of the sound state, and changes nothing else of it. -/
theorem raiseFault_sound (b : GainRamp) (k : FaultKind) (s : State) : RampsOnly s.sound (raiseFault b k s).sound := by
  rw [raiseFault_eq]
  refine ⟨_, if (decide ((policyOfKind s k).policy = .latch) && decide (s.ctl.state = .running)) = true then
    s.sound.pendingMask else s.sound.activeMask, ?_, rfl⟩
  split
  · exact .inr rfl
  · exact .inl rfl

theorem raiseFault_soundLate (b : GainRamp) (k : FaultKind) (s : State) : (raiseFault b k s).sound.late = s.sound.late := by
  rw [raiseFault_eq]; rfl

theorem raiseFault_soundStarved (b : GainRamp) (k : FaultKind) (s : State) :
    (raiseFault b k s).sound.starved = s.sound.starved := by rw [raiseFault_eq]; rfl

/-! ### A law kept -/

/-- A law that each part of a raise keeps is kept by the raise. -/
theorem raiseFault_keeps {P : State → Prop} {b : GainRamp} {k : FaultKind} {s : State} (h0 : P s)
    (hf : ∀ k f t, P t → P (modFault k f t)) (he : ∀ e t, P t → P (setEvent e t))
    (hc : ∀ n t, P t → P (t.setSup { t.sup with countdown := n })) (hr : ∀ target t, P t → P (startRamp b target t))
    (hh : ∀ t, t.ctl.state = .running → P t → P (holdShow b t)) : P (raiseFault b k s) := by
  have left : ∀ t, P t → P (outputLeft b t) := by
    intro t ht; unfold outputLeft; split
    · exact hr _ _ ht
    · exact ht
  have flag : P (flagFault k (countRaise k s)) := he _ _ (hf _ _ _ (hf _ _ _ h0))
  unfold raiseFault
  cases (policyOfKind s k).policy <;> dsimp only
  · exact hf _ _ _ h0
  · exact flag
  · unfold blankFor; split
    · exact flag
    · dsimp only; split
      · exact left _ (hc _ _ flag)
      · exact hc _ _ flag
  · unfold latchFault holdRequest
    have step : ∀ t, P t → P (if isRunning t then holdShow b t else t) := by
      intro t ht; split
      · rename_i h; exact hh _ (by simpa [isRunning] using h) ht
      · exact ht
    dsimp only
    apply step
    split
    · exact left _ (hf _ _ _ flag)
    · exact hf _ _ _ flag

/-! ### Withdrawing -/

theorem faultOf_setDetector (k m : FaultKind) (v : Bool) (s : State) : faultOf (setDetector k v s) m = faultOf s m := by
  cases k <;> rfl

theorem faultOf_withdraw (k m : FaultKind) (s : State) :
    faultOf (withdraw k s) m = if k = m then { faultOf s k with condition := false } else faultOf s m := by
  rw [withdraw, faultOf_modFault, faultOf_setDetector, faultOf_setDetector]

end Sys2Proof.Machine
end

