-- ==== Sys2Proof/Laws/Advance.lean ====
section
/-! SUPPORT. Laws/Advance.lean: what the reactions to an advance keep and what each alone changes, for every order of them (R31). -/

namespace Sys2Proof.Machine

/-- The clock of two states is the same but for what a hold and SYNC_LOSS change. -/
def ClockKept (c d : Clock) : Prop :=
  (d = { c with syncLoss := d.syncLoss } ∨ d = { c with substate := .idle, anchorDeadline := none, syncLoss := d.syncLoss })

/-- What every reaction to an advance keeps. -/
structure Kept (s t : State) : Prop where
  pending : t.pending = s.pending
  power : t.power = s.power
  path : t.path = s.path
  keys : t.keys = s.keys
  secure : t.secure = s.secure
  overlay : t.overlay = s.overlay
  free : t.free = s.free
  out : t.out = s.out
  position : t.ctl.position = s.ctl.position
  record : t.ctl.record = s.ctl.record
  mark : t.ctl.mark = s.ctl.mark
  commitUnit : t.ctl.commitUnit = s.ctl.commitUnit
  show_state : t.ctl.state = s.ctl.state ∨ (s.ctl.state = .running ∧ t.ctl.state = .held)
  clock : ClockKept s.clock t.clock
  idle : s.ctl.state ≠ .running → t.clock.substate = s.clock.substate
  pendingMask : t.sound.pendingMask = s.sound.pendingMask
  mask : t.sound.activeMask = s.sound.activeMask ∨ t.sound.activeMask = s.sound.pendingMask
  rampLength : t.sound.rampLength = s.sound.rampLength
  soundFrontier : t.sound.frontier = s.sound.frontier
  soundLimit : t.sound.limit = s.sound.limit
  pictureFrontier : t.unpack.frontier = s.unpack.frontier
  pictureLimit : t.unpack.limit = s.unpack.limit
  contexts : t.unpack.context0 = s.unpack.context0 ∧ t.unpack.context1 = s.unpack.context1
  policies : t.sup.policies = s.sup.policies
  watchdog : t.sup.watchdog = s.sup.watchdog
  unpackCounts : (t.unpack.withheldPicture, t.unpack.withheldSound, t.unpack.checkedUnits, t.unpack.uncheckedUnits,
    t.unpack.unitCheck) = (s.unpack.withheldPicture, s.unpack.withheldSound, s.unpack.checkedUnits, s.unpack.uncheckedUnits,
    s.unpack.unitCheck)
  link : EventsAdded s.link t.link

theorem ClockKept.refl (c : Clock) : ClockKept c c := .inl rfl

theorem ClockKept.trans {a b c : Clock} (h : ClockKept a b) (g : ClockKept b c) : ClockKept a c := by
  unfold ClockKept at *
  rcases h with h | h <;> rcases g with g | g <;> rw [h] at g
  · exact .inl g
  · exact .inr g
  · exact .inr g
  · exact .inr g

/-- A value of the clock that neither a hold nor SYNC_LOSS touches is as it was. -/
theorem ClockKept.value {α : Type} {c d : Clock} (h : ClockKept c d) (f : Clock → α)
    (hf : ∀ c : Clock, ∀ x y z, f { c with substate := x, anchorDeadline := y, syncLoss := z } = f c) : f d = f c := by
  rcases h with h | h <;> rw [h]
  · exact hf c c.substate c.anchorDeadline d.syncLoss
  · exact hf c .idle none d.syncLoss

theorem Kept.refl (s : State) : Kept s s where
  pending := rfl
  power := rfl
  path := rfl
  keys := rfl
  secure := rfl
  overlay := rfl
  free := rfl
  out := rfl
  position := rfl
  record := rfl
  mark := rfl
  commitUnit := rfl
  show_state := .inl rfl
  clock := ClockKept.refl _
  idle := fun _ => rfl
  pendingMask := rfl
  mask := .inl rfl
  rampLength := rfl
  soundFrontier := rfl
  soundLimit := rfl
  pictureFrontier := rfl
  pictureLimit := rfl
  contexts := ⟨rfl, rfl⟩
  policies := rfl
  watchdog := rfl
  unpackCounts := rfl
  link := EventsAdded.refl _

theorem Kept.trans {s t u : State} (h : Kept s t) (g : Kept t u) : Kept s u where
  pending := g.pending.trans h.pending
  power := g.power.trans h.power
  path := g.path.trans h.path
  keys := g.keys.trans h.keys
  secure := g.secure.trans h.secure
  overlay := g.overlay.trans h.overlay
  free := g.free.trans h.free
  out := g.out.trans h.out
  position := g.position.trans h.position
  record := g.record.trans h.record
  mark := g.mark.trans h.mark
  commitUnit := g.commitUnit.trans h.commitUnit
  show_state := by
    rcases h.show_state with h | ⟨h1, h2⟩ <;> rcases g.show_state with g | ⟨g1, g2⟩
    · exact .inl (g.trans h)
    · exact .inr ⟨h ▸ g1, g2⟩
    · exact .inr ⟨h1, g.trans h2⟩
    · exact .inr ⟨h1, g2⟩
  clock := h.clock.trans g.clock
  idle := fun n => by
    have e : t.ctl.state = s.ctl.state := by
      rcases h.show_state with h | ⟨h1, _⟩
      · exact h
      · exact absurd h1 n
    exact (g.idle (e ▸ n)).trans (h.idle n)
  pendingMask := g.pendingMask.trans h.pendingMask
  mask := by
    rcases g.mask with g | g
    · rcases h.mask with h | h
      · exact .inl (g.trans h)
      · exact .inr (g.trans h)
    · exact .inr (g.trans h.pendingMask)
  rampLength := g.rampLength.trans h.rampLength
  soundFrontier := g.soundFrontier.trans h.soundFrontier
  soundLimit := g.soundLimit.trans h.soundLimit
  pictureFrontier := g.pictureFrontier.trans h.pictureFrontier
  pictureLimit := g.pictureLimit.trans h.pictureLimit
  contexts := ⟨g.contexts.1.trans h.contexts.1, g.contexts.2.trans h.contexts.2⟩
  policies := g.policies.trans h.policies
  watchdog := g.watchdog.trans h.watchdog
  unpackCounts := g.unpackCounts.trans h.unpackCounts
  link := h.link.trans g.link

/-- Events pending stay pending. -/
theorem Kept.events {s t : State} (h : Kept s t) (e : Nat) (he : s.link.eventPending.getLsbD e = true) :
    t.link.eventPending.getLsbD e = true := h.link.getLsbD he

/-- A hold, made or not, keeps all of it. -/
theorem held_kept {s t : State} (held : Bool) (h : t = { s with
    sup := { s.sup with faults := t.sup.faults, countdown := t.sup.countdown }
    link := t.link
    ctl := if held then { s.ctl with state := .held } else s.ctl
    clock := if held then { s.clock with substate := .idle, anchorDeadline := none } else s.clock
    sound := { s.sound with
      ramp := t.sound.ramp, activeMask := if held then s.sound.pendingMask else s.sound.activeMask } })
    (running : held = true → s.ctl.state = .running) (events : EventsAdded s.link t.link) : Kept s t := by
  cases held <;> rw [h]
  · exact { Kept.refl s with link := events }
  · exact
      { Kept.refl s with
        show_state := .inr ⟨running rfl, rfl⟩, clock := .inr rfl, idle := fun n => absurd (running rfl) n,
        mask := .inr rfl, link := events }

/-- A raise keeps all of it. -/
theorem raiseFault_kept (b : GainRamp) (k : FaultKind) (s : State) : Kept s (raiseFault b k s) :=
  held_kept ((policyOfKind s k).policy = .latch && s.ctl.state = .running) (by rw [raiseFault_eq]; rfl)
    (by simp) (raiseFault_link b k s)

/-- A detector other than the watchdog's, set or cleared, keeps all of it. -/
theorem setDetector_kept {k : FaultKind} (h : k ≠ .watchdog) (v : Bool) (s : State) : Kept s (setDetector k v s) := by
  cases k
  case watchdog => exact absurd rfl h
  case syncLoss => exact { Kept.refl s with clock := .inl rfl, idle := fun _ => rfl }
  case pictureStarved => exact { Kept.refl s with pictureFrontier := rfl, pictureLimit := rfl, contexts := ⟨rfl, rfl⟩, unpackCounts := rfl }
  case soundStarved =>
    exact { Kept.refl s with
      pendingMask := rfl, mask := .inl rfl, rampLength := rfl, soundFrontier := rfl, soundLimit := rfl }
  case keyLapsed =>
    exact { Kept.refl s with
      position := rfl, record := rfl, mark := rfl, commitUnit := rfl, show_state := .inl rfl, idle := fun _ => rfl }
  all_goals exact Kept.refl s

theorem raiseCondition_kept {k : FaultKind} (h : k ≠ .watchdog) (b : GainRamp) (s : State) : Kept s (raiseCondition b k s) := by
  unfold raiseCondition; split
  · exact Kept.refl s
  · exact (setDetector_kept h true s).trans (raiseFault_kept b k _)

theorem modFault_kept (k : FaultKind) (f : FaultEntry → FaultEntry) (s : State) : Kept s (modFault k f s) :=
  { Kept.refl s with policies := rfl, watchdog := rfl }

theorem withdraw_kept {k : FaultKind} (h : k ≠ .watchdog) (s : State) : Kept s (withdraw k s) :=
  (setDetector_kept h false s).trans (modFault_kept _ _ _)

theorem startRamp_kept (b : GainRamp) (t : RampTarget) (s : State) : Kept s (startRamp b t s) :=
  { Kept.refl s with pendingMask := rfl, mask := .inl rfl, rampLength := rfl, soundFrontier := rfl, soundLimit := rfl }

theorem activateMask_kept (s : State) : Kept s (activateMask s) :=
  { Kept.refl s with pendingMask := rfl, mask := .inr rfl, rampLength := rfl, soundFrontier := rfl, soundLimit := rfl }

theorem setEvent_kept (e : LinkEvent) (s : State) : Kept s (setEvent e s) :=
  { Kept.refl s with link := setEvent_adds e s }

theorem setCount_kept (x : CountUnit) (s : State) : Kept s (s.setCount x) := { Kept.refl s with }

theorem setCues_kept (x : CueIntake) (s : State) : Kept s (s.setCues x) := { Kept.refl s with }

theorem judgeStarved_kept {k : FaultKind} (h : k ≠ .watchdog) (b : GainRamp) (behind : Bool) (late limit : Nat) (s : State) :
    Kept s (judgeStarved b k behind late limit s) := by
  unfold judgeStarved; split
  · split
    · exact raiseCondition_kept h b s
    · exact Kept.refl s
  · split
    · exact withdraw_kept h s
    · exact Kept.refl s

theorem activateLane_kept (lane : LaneId) (p bound : Nat) (s : State) : Kept s (activateLane lane p bound s) := by
  have put : Kept s (putLane lane (laneActivate p bound (cueLane s lane)) s) := by cases lane <;> exact setCues_kept _ s
  unfold activateLane; dsimp only; split
  · exact put.trans (setEvent_kept _ _)
  · exact put

theorem storeCommit_kept (b : GainRamp) (slot : Fin 8) (s : State) : Kept s (storeCommit b slot s) := by
  unfold storeCommit; split
  · exact setCount_kept _ s
  · exact setCount_kept _ s
  · exact (setCount_kept _ s).trans (raiseFault_kept b _ _)

theorem commitShowing_kept (b : GainRamp) (r : ShowRecord) (slot : Fin 8) (s : State) : Kept s (commitShowing b r slot s) := by
  have append : Kept s (appendShowing r slot s) := by
    unfold appendShowing; dsimp only; split
    · exact (setCount_kept _ s).trans (setEvent_kept _ _)
    · exact setCount_kept _ s
  have mark (t : State) : Kept t (t.setCtl { t.ctl with committed := true }) :=
    { Kept.refl t with
      position := rfl, record := rfl, mark := rfl, commitUnit := rfl, show_state := .inl rfl, idle := fun _ => rfl }
  exact ((append.trans (mark _)).trans (setEvent_kept .committed _)).trans (storeCommit_kept b slot _)

/-- Every reaction keeps all of it. -/
theorem react_kept (b : GainRamp) (s : State) (r : Reaction) : Kept s (react b s r) := by
  cases r
  · show Kept s (reelAdvance b s)
    unfold reelAdvance; split
    · exact Kept.refl s
    · split
      · exact Kept.refl s
      · split
        · exact raiseCondition_kept (by decide) b s
        · exact Kept.refl s
  · show Kept s (cueAdvance s)
    exact (activateLane_kept .a _ _ s).trans (activateLane_kept .b _ _ _)
  · show Kept s (soundAdvance b s)
    have cmp (t : State) : Kept t (soundCompare b t) := by
      unfold soundCompare; split
      · have late (l : Nat) : Kept t (t.setSound { t.sound with late := l }) :=
          { Kept.refl t with
            pendingMask := rfl, mask := .inl rfl, rampLength := rfl, soundFrontier := rfl, soundLimit := rfl }
        exact (late _).trans (judgeStarved_kept (k := .soundStarved) (by decide) b _ _ _ _)
      · exact Kept.refl t
    unfold soundAdvance; dsimp only
    refine Kept.trans ?_ (cmp _)
    split
    · exact (activateMask_kept s).trans (startRamp_kept b _ _)
    · exact activateMask_kept s
  · show Kept s (pictureAdvance b s)
    unfold pictureAdvance; split
    · have late (l : Nat) : Kept s (s.setUnpack { s.unpack with late := l }) :=
        { Kept.refl s with pictureFrontier := rfl, pictureLimit := rfl, contexts := ⟨rfl, rfl⟩, unpackCounts := rfl }
      exact (late _).trans (judgeStarved_kept (k := .pictureStarved) (by decide) b _ _ _ _)
    · exact Kept.refl s
  · show Kept s (countdownAdvance b s)
    have base : Kept s (s.setSup { s.sup with countdown := s.sup.countdown - 1 }) :=
      { Kept.refl s with policies := rfl, watchdog := rfl }
    unfold countdownAdvance; dsimp only; split
    · refine base.trans ?_
      unfold outputReturned; split
      · exact startRamp_kept b _ _
      · exact Kept.refl _
    · exact base
  · show Kept s (countAdvance b s)
    have blank : Kept s (countBlanked s) := by
      unfold countBlanked; split
      · exact Kept.refl s
      · exact setCount_kept _ s
    unfold countAdvance; split
    · dsimp only; split
      · split
        · exact blank.trans (commitShowing_kept b _ _ _)
        · exact blank
      · exact blank
    · exact Kept.refl s
  · exact raiseCondition_kept (by decide) b s

theorem foldl_kept (b : GainRamp) (order : List Reaction) : ∀ s, Kept s (order.foldl (react b) s) := by
  induction order with
  | nil => intro s; exact Kept.refl s
  | cons r rs ih => intro s; exact (react_kept b s r).trans (ih _)

/-! ### What one reaction alone changes -/

/-- A value that one reaction changes, and no other, is changed once by an order that holds the reaction once.  `Q` is what the
reaction finds, given what is still to come; the reactions before it keep `Q`. -/
theorem foldl_once_from {α : Type} {b : GainRamp} {start : State} (f : State → α) (g : α → α) (own : Reaction)
    (Q : List Reaction → State → Prop)
    (keeps : ∀ r rs t, Kept start t → r ≠ own → Q (r :: rs) t → Q rs (react b t r))
    (other : ∀ t r, Kept start t → r ≠ own → f (react b t r) = f t)
    (does : ∀ rs t, Kept start t → Q (own :: rs) t → f (react b t own) = g (f t))
    (order : List Reaction) : ∀ t, Kept start t →
      (own ∉ order → f (order.foldl (react b) t) = f t) ∧
        (order.count own = 1 → Q order t → f (order.foldl (react b) t) = g (f t)) := by
  induction order with
  | nil => intro t _; exact ⟨fun _ => rfl, fun h => by simp at h⟩
  | cons r rs ih =>
    intro t ht
    have hr := ht.trans (react_kept b t r)
    refine ⟨fun h => ?_, fun h hq => ?_⟩
    · rw [List.foldl_cons, (ih _ hr).1 (fun m => h (List.mem_cons_of_mem _ m)),
        other t r ht (fun e => h (e ▸ List.mem_cons_self))]
    · by_cases e : r = own
      · subst e
        have : r ∉ rs := by
          intro m
          have := List.count_pos_iff.mpr m
          rw [List.count_cons_self] at h
          omega
        rw [List.foldl_cons, (ih _ hr).1 this, does rs t ht hq]
      · rw [List.count_cons_of_ne e] at h
        rw [List.foldl_cons, (ih _ hr).2 h (keeps r rs t ht e hq), other t r ht e]

/-- The same for a reaction that finds nothing in particular. -/
theorem foldl_once {α : Type} {b : GainRamp} {start : State} (f : State → α) (g : α → α) (own : Reaction)
    (other : ∀ t r, Kept start t → r ≠ own → f (react b t r) = f t) (does : ∀ t, Kept start t → f (react b t own) = g (f t))
    (order : List Reaction) (once : order.count own = 1) (t : State) (ht : Kept start t) :
    f (order.foldl (react b) t) = g (f t) :=
  (foldl_once_from f g own (fun _ _ => True) (fun _ _ _ _ _ _ => trivial) other (fun _ t h _ => does t h) order t ht).2
    once trivial

/-- A fact that every reaction keeps holds after any order of them. -/
theorem foldl_keeps {b : GainRamp} {start : State} {P : State → Prop}
    (keeps : ∀ t r, Kept start t → P t → P (react b t r)) (order : List Reaction) :
    ∀ t, Kept start t → P t → P (order.foldl (react b) t) := by
  induction order with
  | nil => exact fun _ _ h => h
  | cons r rs ih => exact fun t ht h => ih _ (ht.trans (react_kept b t r)) (keeps t r ht h)

/-- A fact that one reaction brings about and every reaction keeps holds after an order that holds the reaction.  `Q` is as
above. -/
theorem foldl_reaches_from {b : GainRamp} {start : State} {P : State → Prop} (own : Reaction)
    (Q : List Reaction → State → Prop)
    (keepsQ : ∀ r rs t, Kept start t → r ≠ own → Q (r :: rs) t → Q rs (react b t r))
    (keeps : ∀ t r, Kept start t → P t → P (react b t r))
    (brings : ∀ rs t, Kept start t → Q (own :: rs) t → P (react b t own))
    (order : List Reaction) : ∀ t, Kept start t → own ∈ order → Q order t → P (order.foldl (react b) t) := by
  induction order with
  | nil => exact fun _ _ h => nomatch h
  | cons r rs ih =>
    intro t ht h hq
    by_cases e : r = own
    · subst e; exact foldl_keeps keeps rs _ (ht.trans (react_kept b t r)) (brings rs t ht hq)
    · exact ih _ (ht.trans (react_kept b t r)) ((List.mem_cons.mp h).resolve_left fun c => e c.symm)
        (keepsQ r rs t ht e hq)

/-- The same for a reaction that finds nothing in particular. -/
theorem foldl_reaches {b : GainRamp} {start : State} {P : State → Prop} (own : Reaction)
    (keeps : ∀ t r, Kept start t → P t → P (react b t r)) (brings : ∀ t, Kept start t → P (react b t own))
    (order : List Reaction) (t : State) (ht : Kept start t) (h : own ∈ order) : P (order.foldl (react b) t) :=
  foldl_reaches_from own (fun _ _ => True) (fun _ _ _ _ _ _ => trivial) keeps (fun _ t h _ => brings t h) order t ht h trivial

end Sys2Proof.Machine
end

