-- ==== Sys2Proof/Laws/Conditions.lean ====
section
/-! SUPPORT. Laws/Conditions.lean: the condition kinds at an advance (R28, R51, R85, R97, R145): which reaction touches which kind, and
what its own reaction does to a kind's detector and to its fault entry. -/

namespace Sys2Proof.Machine

/-! ### Kinds that an operation does not touch -/

/-- A kind's detector and its fault entry are as they were. -/
def Stays (k : FaultKind) (s t : State) : Prop := detectorOf t k = detectorOf s k ∧ faultOf t k = faultOf s k

theorem Stays.refl (k : FaultKind) (s : State) : Stays k s s := ⟨rfl, rfl⟩

theorem Stays.trans {k : FaultKind} {s t u : State} (h : Stays k s t) (g : Stays k t u) : Stays k s u :=
  ⟨g.1.trans h.1, g.2.trans h.2⟩

theorem detectorOf_raiseFault (b : GainRamp) (m k : FaultKind) (s : State) : detectorOf (raiseFault b m s) k = detectorOf s k := by
  have c : (raiseFault b m s).clock.syncLoss = s.clock.syncLoss ∧ (raiseFault b m s).ctl.keyLapsed = s.ctl.keyLapsed := by
    rw [(raiseFault_show b m s).1, (raiseFault_show b m s).2]; constructor <;> split <;> rfl
  cases k
  case syncLoss => exact c.1
  case keyLapsed => exact c.2
  case pictureStarved => show (raiseFault b m s).unpack.starved = _; rw [raiseFault_unpack]; rfl
  case soundStarved => exact raiseFault_soundStarved b m s
  case watchdog => show (raiseFault b m s).sup.watchdog.condition = _; rw [(raiseFault_policies b m s).2]; rfl
  all_goals rfl

theorem detectorOf_modFault (k m : FaultKind) (f : FaultEntry → FaultEntry) (s : State) :
    detectorOf (modFault m f s) k = detectorOf s k := by cases k <;> rfl

theorem raiseFault_stays {m k : FaultKind} (h : m ≠ k) (b : GainRamp) (s : State) : Stays k s (raiseFault b m s) :=
  ⟨detectorOf_raiseFault b m k s, by rw [raiseFault_faultOf, if_neg h]⟩

theorem setDetector_stays {m k : FaultKind} (h : m ≠ k) (v : Bool) (s : State) : Stays k s (setDetector m v s) :=
  ⟨by cases m <;> cases k <;> first | rfl | exact absurd rfl h, faultOf_setDetector m k v s⟩

theorem raiseCondition_stays {m k : FaultKind} (h : m ≠ k) (b : GainRamp) (s : State) : Stays k s (raiseCondition b m s) := by
  unfold raiseCondition; split
  · exact Stays.refl k s
  · exact (setDetector_stays h true s).trans (raiseFault_stays h b _)

theorem withdraw_stays {m k : FaultKind} (h : m ≠ k) (s : State) : Stays k s (withdraw m s) :=
  (setDetector_stays h false s).trans ⟨detectorOf_modFault _ _ _ _, (faultOf_modFault _ _ _ _).trans (if_neg h)⟩

theorem judgeStarved_stays {m k : FaultKind} (h : m ≠ k) (b : GainRamp) (behind : Bool) (late limit : Nat) (s : State) :
    Stays k s (judgeStarved b m behind late limit s) := by
  unfold judgeStarved; split
  · split
    · exact raiseCondition_stays h b s
    · exact Stays.refl k s
  · split
    · exact withdraw_stays h s
    · exact Stays.refl k s

/-! ### A kind under its own operation -/

theorem detectorOf_setDetector {k : FaultKind} (h : isConditionKind k = true) (v : Bool) (s : State) :
    detectorOf (setDetector k v s) k = v := by cases k <;> first | rfl | simp [isConditionKind] at h

theorem policyOfKind_setDetector (k m : FaultKind) (v : Bool) (s : State) :
    policyOfKind (setDetector k v s) m = policyOfKind s m := by cases k <;> rfl

/-- A condition that becomes active is active, its kind raised once if it was not (R145, R147). -/
theorem raiseCondition_own {k : FaultKind} (h : isConditionKind k = true) (b : GainRamp) (s : State) :
    detectorOf (raiseCondition b k s) k = true ∧
      faultOf (raiseCondition b k s) k = conditionEntry (policyOfKind s k).policy k (detectorOf s k) true (faultOf s k) := by
  unfold raiseCondition
  cases hd : detectorOf s k
  · rw [if_neg (by simp), detectorOf_raiseFault, detectorOf_setDetector h, raiseFault_faultOf, if_pos rfl,
      policyOfKind_setDetector, faultOf_setDetector]
    exact ⟨rfl, rfl⟩
  · rw [if_pos rfl]; exact ⟨hd, rfl⟩

/-- A raise of a condition sets the FAULT event under every policy but IGNORE, and under LATCH latches the output and leaves no show
RUNNING. -/
theorem raiseCondition_raises {k : FaultKind} {s : State} (h : detectorOf s k = false) (b : GainRamp) :
    ((policyOfKind s k).policy ≠ .ignore → (raiseCondition b k s).link.eventPending.getLsbD 0 = true) ∧
    ((policyOfKind s k).policy = .latch →
      anyLatched (raiseCondition b k s) = true ∧ (raiseCondition b k s).ctl.state ≠ .running) := by
  unfold raiseCondition
  rw [if_neg (by simp [h])]
  have e := policyOfKind_setDetector k k true s
  refine ⟨fun n => (raiseFault_flag b k _ (e ▸ n)).2, fun n => ⟨?_, ?_⟩⟩
  · exact (anyLatched_iff _).mpr ⟨k, by rw [raiseFault_faultOf, if_pos rfl, e, n]; simp [raisedEntry]⟩
  · obtain ⟨held, other⟩ := raiseFault_latch b k (setDetector k true s) (e ▸ n)
    by_cases r : (setDetector k true s).ctl.state = .running
    · rw [(held r).1]; exact nofun
    · rw [(other r).1]; exact r

/-- A starvation detector after its comparison (R85, R97). -/
theorem judgeStarved_own {k : FaultKind} (h : isConditionKind k = true) (b : GainRamp) (behind : Bool) (late limit : Nat)
    (s : State) : detectorOf (judgeStarved b k behind late limit s) k = starvedAfter true behind late limit (detectorOf s k) ∧
      faultOf (judgeStarved b k behind late limit s) k = conditionEntry (policyOfKind s k).policy k (detectorOf s k)
        (starvedAfter true behind late limit (detectorOf s k)) (faultOf s k) := by
  unfold judgeStarved starvedAfter
  cases behind
  · cases hd : detectorOf s k
    · exact ⟨hd, rfl⟩
    · refine ⟨?_, ?_⟩
      · show detectorOf (withdraw k s) k = _
        rw [withdraw, detectorOf_modFault, detectorOf_setDetector h]; rfl
      · show faultOf (withdraw k s) k = _
        rw [faultOf_withdraw, if_pos rfl]; rfl
  · by_cases hl : limit ≤ late
    · have own := raiseCondition_own h b s
      simpa [hl] using own
    · cases hd : detectorOf s k <;> simp [hl, hd, conditionEntry]

/-- A raise of a starvation detector, as of any condition. -/
theorem judgeStarved_raises {k : FaultKind} {behind : Bool} {late limit : Nat} {s : State} (h : detectorOf s k = false)
    (b : GainRamp) (now : detectorOf (judgeStarved b k behind late limit s) k = true) :
    judgeStarved b k behind late limit s = raiseCondition b k s := by
  revert now; unfold judgeStarved
  split
  · split
    · exact fun _ => rfl
    · exact fun n => absurd (n.symm.trans h) (by decide)
  · rw [if_neg (by simp [h])]
    exact fun n => absurd (n.symm.trans h) (by decide)

/-! ### The reactions -/

/-- The kind that a reaction may raise. -/
def raisedBy : Reaction → Option FaultKind
  | .reel => some .keyLapsed
  | .sound => some .soundStarved
  | .picture => some .pictureStarved
  | .count => some .storeFail
  | .syncLoss => some .syncLoss
  | .cues | .countdown => none

theorem countBlanked_stays (k : FaultKind) (s : State) : Stays k s (countBlanked s) := by
  unfold countBlanked; split
  · exact Stays.refl k s
  · cases k <;> exact ⟨rfl, rfl⟩

theorem commitShowing_stays {k : FaultKind} (h : FaultKind.storeFail ≠ k) (b : GainRamp) (r : ShowRecord) (slot : Fin 8) (s : State) :
    Stays k s (commitShowing b r slot s) := by
  have append : Stays k s (appendShowing r slot s) := by
    unfold appendShowing; dsimp only; split <;> cases k <;> exact ⟨rfl, rfl⟩
  have mark (t : State) : Stays k t (setEvent .committed (t.setCtl { t.ctl with committed := true })) := by
    cases k <;> exact ⟨rfl, rfl⟩
  have store (t : State) : Stays k t (storeCommit b slot t) := by
    unfold storeCommit; split
    · cases k <;> exact ⟨rfl, rfl⟩
    · cases k <;> exact ⟨rfl, rfl⟩
    · refine Stays.trans ?_ (raiseFault_stays h b _)
      cases k <;> exact ⟨rfl, rfl⟩
  exact (append.trans (mark _)).trans (store _)

theorem countAdvance_stays {k : FaultKind} (h : FaultKind.storeFail ≠ k) (b : GainRamp) (s : State) :
    Stays k s (countAdvance b s) := by
  unfold countAdvance; split
  · dsimp only; split
    · split
      · exact (countBlanked_stays k s).trans (commitShowing_stays h b _ _ _)
      · exact countBlanked_stays k s
    · exact countBlanked_stays k s
  · exact Stays.refl k s

theorem startRamp_stays (k : FaultKind) (b : GainRamp) (g : RampTarget) (s : State) : Stays k s (startRamp b g s) := by
  cases k <;> exact ⟨rfl, rfl⟩

theorem cueAdvance_stays (k : FaultKind) (s : State) : Stays k s (cueAdvance s) := by
  have lane (l : LaneId) (t : State) : Stays k t (activateLane l s.ctl.position (activationBound s) t) := by
    unfold activateLane; dsimp only; split <;> cases l <;> cases k <;> exact ⟨rfl, rfl⟩
  exact (lane .a s).trans (lane .b _)

theorem countdownAdvance_stays (k : FaultKind) (b : GainRamp) (s : State) : Stays k s (countdownAdvance b s) := by
  have base : Stays k s (s.setSup { s.sup with countdown := s.sup.countdown - 1 }) := by cases k <;> exact ⟨rfl, rfl⟩
  unfold countdownAdvance; dsimp only; split
  · refine base.trans ?_
    unfold outputReturned; split
    · exact startRamp_stays k b _ _
    · exact Stays.refl k _
  · exact base

/-- The Sound Stage before its comparison: the mask is activated, and at the final advance a ramp is started. -/
def soundBegins (b : GainRamp) (s : State) : State :=
  if s.ctl.position = showTotal s then startRamp b .silence (activateMask s) else activateMask s

/-- The Sound Stage before its comparison changes the gain ramp and the active mask alone. -/
theorem soundBegins_eq (b : GainRamp) (s : State) : soundBegins b s =
    { s with sound := { s.sound with ramp := (soundBegins b s).sound.ramp, activeMask := s.sound.pendingMask } } := by
  unfold soundBegins; split <;> rfl

theorem soundBegins_stays (k : FaultKind) (b : GainRamp) (s : State) : Stays k s (soundBegins b s) := by
  rw [soundBegins_eq]; cases k <;> exact ⟨rfl, rfl⟩

/-- A reaction touches no kind but the one it may raise. -/
theorem react_stays {r : Reaction} {k : FaultKind} (h : raisedBy r ≠ some k) (b : GainRamp) (s : State) :
    Stays k s (react b s r) := by
  have ne {m : FaultKind} (e : raisedBy r = some m) : m ≠ k := fun c => h (by rw [e, c])
  cases r
  · show Stays k s (reelAdvance b s)
    unfold reelAdvance; split
    · exact Stays.refl k s
    · split
      · exact Stays.refl k s
      · split
        · exact raiseCondition_stays (ne rfl) b s
        · exact Stays.refl k s
  · exact cueAdvance_stays k s
  · show Stays k s (soundAdvance b s)
    have compare (t : State) : Stays k t (soundCompare b t) := by
      unfold soundCompare; split
      · refine Stays.trans ?_ (judgeStarved_stays (ne rfl) b _ _ _ _)
        cases k <;> exact ⟨rfl, rfl⟩
      · exact Stays.refl k t
    exact (soundBegins_stays k b s).trans (compare _)
  · show Stays k s (pictureAdvance b s)
    unfold pictureAdvance; split
    · refine Stays.trans ?_ (judgeStarved_stays (ne rfl) b _ _ _ _)
      cases k <;> exact ⟨rfl, rfl⟩
    · exact Stays.refl k s
  · exact countdownAdvance_stays k b s
  · exact countAdvance_stays (ne rfl) b s
  · exact raiseCondition_stays (ne rfl) b s

/-- Reactions none of which may raise a kind leave it. -/
theorem foldl_stays {k : FaultKind} (b : GainRamp) (order : List Reaction) : ∀ s, (∀ r ∈ order, raisedBy r ≠ some k) →
    Stays k s (order.foldl (react b) s) := by
  induction order with
  | nil => intro s _; exact Stays.refl k s
  | cons r rs ih =>
    intro s h
    exact (react_stays (h r List.mem_cons_self) b s).trans (ih _ fun q m => h q (List.mem_cons_of_mem _ m))

end Sys2Proof.Machine
end

