-- ==== Sys2Proof/Laws/Reactions.lean ====
section
/-! SUPPORT. Laws/Reactions.lean: what each reaction to an advance does, and which reaction alone touches a value (R31). -/

namespace Sys2Proof.Machine

/-! ### What a raise leaves -/

/-- The values that one reaction alone changes are as they were. -/
structure Aside (s t : State) : Prop where
  cues : t.cues = s.cues
  pictureLate : t.unpack.late = s.unpack.late
  soundLate : t.sound.late = s.sound.late
  blanked : t.count.blanked = s.count.blanked

theorem Aside.refl (s : State) : Aside s s := ⟨rfl, rfl, rfl, rfl⟩

theorem Aside.trans {s t u : State} (h : Aside s t) (g : Aside t u) : Aside s u where
  cues := g.cues.trans h.cues
  pictureLate := g.pictureLate.trans h.pictureLate
  soundLate := g.soundLate.trans h.soundLate
  blanked := g.blanked.trans h.blanked

theorem raiseFault_aside (b : GainRamp) (k : FaultKind) (s : State) : Aside s (raiseFault b k s) := by
  rw [raiseFault_eq]; exact ⟨rfl, rfl, rfl, rfl⟩

theorem setDetector_aside (k : FaultKind) (v : Bool) (s : State) : Aside s (setDetector k v s) := by
  cases k <;> exact ⟨rfl, rfl, rfl, rfl⟩

theorem raiseCondition_aside (b : GainRamp) (k : FaultKind) (s : State) : Aside s (raiseCondition b k s) := by
  unfold raiseCondition; split
  · exact Aside.refl s
  · exact (setDetector_aside k true s).trans (raiseFault_aside b k _)

theorem judgeStarved_aside (b : GainRamp) (k : FaultKind) (behind : Bool) (late limit : Nat) (s : State) :
    Aside s (judgeStarved b k behind late limit s) := by
  unfold judgeStarved; split
  · split
    · exact raiseCondition_aside b k s
    · exact Aside.refl s
  · split
    · exact (setDetector_aside k false s).trans ⟨rfl, rfl, rfl, rfl⟩
    · exact Aside.refl s

theorem anyLatched_congr {s t : State} (h : s.sup.faults = t.sup.faults) : anyLatched s = anyLatched t := by
  simp [anyLatched, faultOf, h]

theorem raiseCondition_keepsLatch (b : GainRamp) (k : FaultKind) {s : State} (h : anyLatched s = true) :
    anyLatched (raiseCondition b k s) = true := by
  unfold raiseCondition; split
  · exact h
  · refine raiseFault_keepsLatch b k ?_
    rw [← h]; exact anyLatched_congr (by cases k <;> rfl)

theorem judgeStarved_keepsLatch (b : GainRamp) (k : FaultKind) (behind : Bool) (late limit : Nat) {s : State}
    (h : anyLatched s = true) : anyLatched (judgeStarved b k behind late limit s) = true := by
  unfold judgeStarved; split
  · split
    · exact raiseCondition_keepsLatch b k h
    · exact h
  · split
    · refine (anyLatched_modFault (f := fun e => { e with condition := false }) (fun _ => rfl) _).trans (.trans ?_ h)
      exact anyLatched_congr (by cases k <;> rfl)
    · exact h

/-- The countdown is as it was, or the kind was raised under TIMED and it did not fall. -/
def CountdownRises (k : FaultKind) (s t : State) : Prop :=
  t.sup.countdown = s.sup.countdown ∨ ((policyOfKind s k).policy = .timed ∧ s.sup.countdown ≤ t.sup.countdown ∧
    (k ≠ .storeFail → detectorOf s k = false ∧ detectorOf t k = true))

theorem raiseFault_countdown_rises (b : GainRamp) (k : FaultKind) (s : State) :
    (raiseFault b k s).sup.countdown = s.sup.countdown ∨
      ((policyOfKind s k).policy = .timed ∧ s.sup.countdown ≤ (raiseFault b k s).sup.countdown) := by
  rw [raiseFault_countdown_eq]; split
  · rename_i h; exact .inr ⟨h.1, Nat.le_max_left _ _⟩
  · exact .inl rfl

theorem raiseCondition_rises {k : FaultKind} (h : isConditionKind k = true) (b : GainRamp) (s : State) :
    CountdownRises k s (raiseCondition b k s) := by
  have own := (raiseCondition_own h b s).1
  revert own
  unfold raiseCondition; split
  · exact fun _ => .inl rfl
  · rename_i hd
    intro own
    have e : (setDetector k true s).sup.countdown = s.sup.countdown := by cases k <;> rfl
    rcases raiseFault_countdown_rises b k (setDetector k true s) with c | ⟨p, c⟩
    · exact .inl (c.trans e)
    · exact .inr ⟨policyOfKind_setDetector k k true s ▸ p, e ▸ c, fun _ => ⟨by simpa using hd, own⟩⟩

theorem judgeStarved_rises {k : FaultKind} (h : isConditionKind k = true) (b : GainRamp) (behind : Bool) (late limit : Nat)
    (s : State) : CountdownRises k s (judgeStarved b k behind late limit s) := by
  unfold judgeStarved; split
  · split
    · exact raiseCondition_rises h b s
    · exact .inl rfl
  · split
    · exact .inl (by cases k <;> rfl)
    · exact .inl rfl

theorem CountdownRises.of_stays {k : FaultKind} {s t u : State} (h : Stays k s t) (hp : t.sup.policies = s.sup.policies)
    (hc : t.sup.countdown = s.sup.countdown) (g : CountdownRises k t u) : CountdownRises k s u := by
  have p : policyOfKind t k = policyOfKind s k := by simp [policyOfKind, hp]
  rcases g with g | ⟨g1, g2, g3⟩
  · exact .inl (g.trans hc)
  · exact .inr ⟨p ▸ g1, hc ▸ g2, fun n => ⟨h.1 ▸ (g3 n).1, (g3 n).2⟩⟩

/-! ### What each reaction does -/

/-- An entry into a reel (R51). -/
theorem reelAdvance_does (b : GainRamp) (s : State) : Aside s (reelAdvance b s) ∧ CountdownRises .keyLapsed s (reelAdvance b s) ∧
    reelAdvance b s = if lapsesAt s s.ctl.position then raiseCondition b .keyLapsed s else s := by
  have e : reelAdvance b s = if lapsesAt s s.ctl.position then raiseCondition b .keyLapsed s else s := by
    unfold reelAdvance lapsesAt
    cases s.ctl.record with
    | none => simp
    | some r =>
      dsimp only
      split <;> rename_i h <;> simp [h]
  rw [e]
  refine ⟨?_, ?_, rfl⟩ <;> split
  · exact raiseCondition_aside b _ s
  · exact Aside.refl s
  · exact raiseCondition_rises rfl b s
  · exact .inl rfl

/-- The Unpack Engine (R85). -/
theorem pictureAdvance_does (b : GainRamp) (s : State) :
    let compared := isFull s && decide (s.ctl.position < showTotal s)
    let behind := frontierBehind s.unpack.frontier s.ctl.position
    let late := lateAfter compared behind s.unpack.late
    Aside (s.setUnpack { s.unpack with late := late }) (pictureAdvance b s) ∧
      CountdownRises .pictureStarved s (pictureAdvance b s) ∧
      pictureAdvance b s = if compared then
        judgeStarved b .pictureStarved behind late s.unpack.limit (s.setUnpack { s.unpack with late := late }) else s := by
  intro compared behind late
  by_cases h : compared = true
  · have el : late = nextLate behind s.unpack.late := if_pos h
    have e : pictureAdvance b s =
        judgeStarved b .pictureStarved behind late s.unpack.limit (s.setUnpack { s.unpack with late := late }) := by
      rw [el]; unfold pictureAdvance; rw [if_pos (show comparisonMade s = true from h)]
    rw [e, if_pos h]
    exact ⟨judgeStarved_aside .., .of_stays ⟨rfl, rfl⟩ rfl rfl (judgeStarved_rises rfl ..), rfl⟩
  · have el : late = s.unpack.late := if_neg h
    have e : pictureAdvance b s = s := by
      unfold pictureAdvance; rw [if_neg (show ¬ comparisonMade s = true from h)]
    rw [e, if_neg h, el]
    exact ⟨⟨rfl, rfl, rfl, rfl⟩, .inl rfl, rfl⟩

/-- The Sound Stage (R97). -/
theorem soundAdvance_does (b : GainRamp) (s : State) :
    let compared := isFull s && decide (s.ctl.position < showTotal s)
    let behind := frontierBehind s.sound.frontier (s.ctl.position * showSpu s)
    let late := lateAfter compared behind s.sound.late
    let u := soundBegins b s
    Aside (s.setSound { s.sound with late := late }) (soundAdvance b s) ∧
      CountdownRises .soundStarved s (soundAdvance b s) ∧
      soundAdvance b s = if compared then
        judgeStarved b .soundStarved behind late s.sound.limit (u.setSound { u.sound with late := late }) else u := by
  intro compared behind late u
  have shape := soundBegins_eq b s
  have facts : u.sup = s.sup ∧ u.cues = s.cues ∧ u.unpack = s.unpack ∧ u.count = s.count ∧ u.ctl = s.ctl ∧
      u.sound.late = s.sound.late ∧ u.sound.frontier = s.sound.frontier ∧ u.sound.limit = s.sound.limit := by
    simp only [u]; rw [shape]; simp
  obtain ⟨hsup, hcues, hunpack, hcount, hctl, hlate, hfrontier, hlimit⟩ := facts
  have total : showTotal u = showTotal s := by simp [showTotal, hctl]
  have same : comparisonMade u = compared := by unfold comparisonMade isFull; rw [total, hctl]; rfl
  have spu : showSpu u = showSpu s := by simp [showSpu, hctl]
  have e : soundAdvance b s = soundCompare b u := rfl
  by_cases h : compared = true
  · have el : late = nextLate behind s.sound.late := if_pos h
    have e' : soundCompare b u =
        judgeStarved b .soundStarved behind late s.sound.limit (u.setSound { u.sound with late := late }) := by
      rw [el]; unfold soundCompare
      rw [if_pos (same.trans h), hlate, hfrontier, hlimit, spu, hctl]
    rw [e, e', if_pos h]
    refine ⟨.trans ?_ (judgeStarved_aside ..), .of_stays (t := u.setSound { u.sound with late := late }) ?_ ?_ ?_
      (judgeStarved_rises rfl ..), rfl⟩
    · exact ⟨hcues, by simp [hunpack], rfl, by simp [hcount]⟩
    · refine (soundBegins_stays .soundStarved b s).trans ⟨rfl, rfl⟩
    · simp [hsup]
    · simp [hsup]
  · have el : late = s.sound.late := if_neg h
    have e' : soundCompare b u = u := by unfold soundCompare; rw [if_neg (by rw [same]; exact h)]
    rw [e, e', if_neg h, el]
    exact ⟨⟨hcues, by rw [hunpack]; rfl, hlate, by rw [hcount]; rfl⟩, .inl (by rw [hsup]), rfl⟩

/-- What the Count Unit's reaction leaves. -/
structure CountLeaves (s t : State) : Prop where
  cues : t.cues = s.cues
  unpack : t.unpack = s.unpack
  soundLate : t.sound.late = s.sound.late
  blanked : t.count.blanked = s.count.blanked
  policies : t.sup.policies = s.sup.policies
  rises : t.sup.countdown = s.sup.countdown ∨
    ((policyOfKind s .storeFail).policy = .timed ∧ s.sup.countdown ≤ t.sup.countdown)
  latch : anyLatched s = true → anyLatched t = true

/-- Nothing of it is touched. -/
theorem CountLeaves.of_same {s t : State} (cues : t.cues = s.cues) (unpack : t.unpack = s.unpack) (sound : t.sound = s.sound)
    (sup : t.sup = s.sup) (blanked : t.count.blanked = s.count.blanked) : CountLeaves s t where
  cues := cues
  unpack := unpack
  soundLate := by rw [sound]
  blanked := blanked
  policies := by rw [sup]
  rises := .inl (by rw [sup])
  latch := fun h => by rw [← h]; exact anyLatched_congr (by rw [sup])

theorem CountLeaves.after_same {s t u : State} (h : CountLeaves t u) (cues : t.cues = s.cues) (unpack : t.unpack = s.unpack)
    (sound : t.sound = s.sound) (sup : t.sup = s.sup) (blanked : t.count.blanked = s.count.blanked) : CountLeaves s u where
  cues := h.cues.trans cues
  unpack := h.unpack.trans unpack
  soundLate := h.soundLate.trans (by rw [sound])
  blanked := h.blanked.trans blanked
  policies := h.policies.trans (by rw [sup])
  rises := by simpa [policyOfKind, sup] using h.rises
  latch := fun g => h.latch (by rw [← g]; exact anyLatched_congr (by rw [sup]))

theorem storeCommit_leaves (b : GainRamp) (slot : Fin 8) (s : State) : CountLeaves s (storeCommit b slot s) := by
  unfold storeCommit; split
  · exact .of_same rfl rfl rfl rfl rfl
  · exact .of_same rfl rfl rfl rfl rfl
  · have a := raiseFault_aside b .storeFail (setRam (suspendSlots [slot] s.count.ram) s)
    exact {
      cues := a.cues, unpack := raiseFault_unpack _ _ _, soundLate := a.soundLate, blanked := a.blanked
      policies := (raiseFault_policies b _ _).1, rises := raiseFault_countdown_rises b _ _
      latch := fun h => raiseFault_keepsLatch b _ (by rw [← h]; rfl) }

theorem commitShowing_leaves (b : GainRamp) (r : ShowRecord) (slot : Fin 8) (s : State) :
    CountLeaves s (commitShowing b r slot s) := by
  unfold commitShowing appendShowing; dsimp only
  split <;> exact (storeCommit_leaves b slot _).after_same rfl rfl rfl rfl rfl

/-- The Count Unit (R134, R135): the blanked count is taken first. -/
theorem countAdvance_leaves (b : GainRamp) (s : State) :
    CountLeaves (if isFull s then countBlanked s else s) (countAdvance b s) := by
  unfold countAdvance; split
  · dsimp only; split
    · split
      · exact commitShowing_leaves b _ _ _
      · exact .of_same rfl rfl rfl rfl rfl
    · exact .of_same rfl rfl rfl rfl rfl
  · exact .of_same rfl rfl rfl rfl rfl

/-- The blanked count at the Count Unit's reaction (R134). -/
theorem countAdvance_blanked (b : GainRamp) (s : State) : (countAdvance b s).count.blanked =
    if isFull s = true ∧ outputCondition s ≠ .openOutput then Nat.min (s.count.blanked + 1) 65535 else s.count.blanked := by
  rw [(countAdvance_leaves b s).blanked]
  cases isFull s
  · simp
  · by_cases h : outputCondition s = .openOutput <;> simp [countBlanked, h, satInc, Config.max16]

/-- What else the Count Unit's reaction leaves. -/
theorem countAdvance_keeps (b : GainRamp) (s : State) : (countAdvance b s).cues = s.cues ∧ (countAdvance b s).unpack = s.unpack ∧
    (countAdvance b s).sound.late = s.sound.late ∧ ((countAdvance b s).sup.countdown = s.sup.countdown ∨
      ((policyOfKind s .storeFail).policy = .timed ∧ s.sup.countdown ≤ (countAdvance b s).sup.countdown)) ∧
    (anyLatched s = true → anyLatched (countAdvance b s) = true) := by
  have same : ∃ c, (if isFull s = true then countBlanked s else s) = s.setCount c := by
    unfold countBlanked; split
    · split
      · exact ⟨s.count, rfl⟩
      · exact ⟨_, rfl⟩
    · exact ⟨s.count, rfl⟩
  obtain ⟨c, hc⟩ := same
  have l := countAdvance_leaves b s
  rw [hc] at l
  exact ⟨l.cues, l.unpack, l.soundLate, l.rises, l.latch⟩

theorem setEvent_own (e : LinkEvent) (s : State) (i : Nat) (h : (eventBit e).getLsbD i = true) :
    (setEvent e s).link.eventPending.getLsbD i = true := by
  simp [setEvent, h]

/-- What activation in one lane does: the lane, and its CUE_LOW event (R109, R111). -/
theorem activateLane_does (lane : LaneId) (p bound : Nat) (s : State) :
    (activateLane lane p bound s).cues = (match lane with
      | .a => { s.cues with laneA := laneActivate p bound s.cues.laneA }
      | .b => { s.cues with laneB := laneActivate p bound s.cues.laneB }) ∧
      (activateLane lane p bound s).link = { s.link with
        eventPending := s.link.eventPending |||
          if laneLow p bound (cueLane s lane) then eventBit (cueLowEvent lane) else 0#7 } ∧
      activateLane lane p bound s =
        { s with cues := (activateLane lane p bound s).cues, link := (activateLane lane p bound s).link } := by
  unfold activateLane; dsimp only
  split <;> cases lane <;> simp [setEvent, putLane, cueLane, State.setLink, State.setCues]

/-- What activation in both lanes does. -/
theorem activateLanes_does (p bound : Nat) (s : State) :
    (activateLanes p bound s).cues = lanesAfter s.cues p bound ∧
      (activateLanes p bound s).link = { s.link with
        eventPending := s.link.eventPending ||| (if laneLow p bound s.cues.laneA then 16#7 else 0#7) |||
          if laneLow p bound s.cues.laneB then 32#7 else 0#7 } ∧
      activateLanes p bound s = { s with cues := (activateLanes p bound s).cues, link := (activateLanes p bound s).link } := by
  obtain ⟨a1, a2, a3⟩ := activateLane_does .a p bound s
  obtain ⟨b1, b2, b3⟩ := activateLane_does .b p bound (activateLane .a p bound s)
  dsimp only at a1 b1
  unfold activateLanes
  refine ⟨b1.trans (by rw [a1]; rfl), b2.trans ?_, b3.trans (by rw [a3])⟩
  rw [a2, show cueLane (activateLane .a p bound s) .b = s.cues.laneB from congrArg (·.laneB) a1]; rfl

/-- The countdown (R149). -/
theorem countdownAdvance_does (b : GainRamp) (s : State) :
    Aside s (countdownAdvance b s) ∧ (countdownAdvance b s).sup = { s.sup with countdown := s.sup.countdown - 1 } := by
  unfold countdownAdvance; dsimp only; split
  · unfold outputReturned; split <;> exact ⟨⟨rfl, rfl, rfl, rfl⟩, rfl⟩
  · exact ⟨⟨rfl, rfl, rfl, rfl⟩, rfl⟩

/-! ### One value, one reaction -/

/-- Only the cues' reaction touches the lanes. -/
theorem react_cues (b : GainRamp) (s : State) (r : Reaction) (h : r ≠ .cues) : (react b s r).cues = s.cues := by
  cases r
  · exact (reelAdvance_does b s).1.cues
  · exact absurd rfl h
  · exact (soundAdvance_does b s).1.cues
  · exact (pictureAdvance_does b s).1.cues
  · exact (countdownAdvance_does b s).1.cues
  · exact (countAdvance_keeps b s).1
  · exact (raiseCondition_aside b _ s).cues

theorem react_pictureLate (b : GainRamp) (s : State) (r : Reaction) (h : r ≠ .picture) :
    (react b s r).unpack.late = s.unpack.late := by
  cases r
  · exact (reelAdvance_does b s).1.pictureLate
  · exact congrArg (·.unpack.late) (activateLanes_does _ _ s).2.2
  · exact (soundAdvance_does b s).1.pictureLate
  · exact absurd rfl h
  · exact (countdownAdvance_does b s).1.pictureLate
  · exact congrArg (·.late) (countAdvance_keeps b s).2.1
  · exact (raiseCondition_aside b _ s).pictureLate

theorem react_soundLate (b : GainRamp) (s : State) (r : Reaction) (h : r ≠ .sound) :
    (react b s r).sound.late = s.sound.late := by
  cases r
  · exact (reelAdvance_does b s).1.soundLate
  · exact congrArg (·.sound.late) (activateLanes_does _ _ s).2.2
  · exact absurd rfl h
  · exact (pictureAdvance_does b s).1.soundLate
  · exact (countdownAdvance_does b s).1.soundLate
  · exact (countAdvance_keeps b s).2.2.1
  · exact (raiseCondition_aside b _ s).soundLate

theorem react_blanked (b : GainRamp) (s : State) (r : Reaction) (h : r ≠ .count) :
    (react b s r).count.blanked = s.count.blanked := by
  cases r
  · exact (reelAdvance_does b s).1.blanked
  · exact congrArg (·.count.blanked) (activateLanes_does _ _ s).2.2
  · exact (soundAdvance_does b s).1.blanked
  · exact (pictureAdvance_does b s).1.blanked
  · exact (countdownAdvance_does b s).1.blanked
  · exact absurd rfl h
  · exact (raiseCondition_aside b _ s).blanked

/-- A reaction other than the countdown's leaves the countdown, or raises its kind under TIMED. -/
theorem react_countdown (b : GainRamp) (s : State) (r : Reaction) (h : r ≠ .countdown) :
    (react b s r).sup.countdown = s.sup.countdown ∨ ∃ k, raisedBy r = some k ∧ CountdownRises k s (react b s r) := by
  cases r
  · exact .inr ⟨_, rfl, (reelAdvance_does b s).2.1⟩
  · exact .inl (congrArg (·.sup.countdown) (activateLanes_does _ _ s).2.2)
  · exact .inr ⟨_, rfl, (soundAdvance_does b s).2.1⟩
  · exact .inr ⟨_, rfl, (pictureAdvance_does b s).2.1⟩
  · exact absurd rfl h
  · rcases (countAdvance_keeps b s).2.2.2.1 with c | ⟨p, c⟩
    · exact .inl c
    · exact .inr ⟨_, rfl, .inr ⟨p, c, fun n => absurd rfl n⟩⟩
  · exact .inr ⟨_, rfl, raiseCondition_rises rfl b s⟩

theorem react_untimed (b : GainRamp) (s : State) (r : Reaction) (h : r ≠ .countdown)
    (untimed : ∀ k, (policyOfKind s k).policy ≠ .timed) : (react b s r).sup.countdown = s.sup.countdown := by
  rcases react_countdown b s r h with c | ⟨k, _, c | ⟨p, _⟩⟩
  · exact c
  · exact c
  · exact absurd p (untimed k)

/-- A latch stands after a reaction when it stood before it. -/
theorem react_keepsLatch (b : GainRamp) {s : State} (r : Reaction) (h : anyLatched s = true) :
    anyLatched (react b s r) = true := by
  have same {t u : State} (e : u.sup.faults = t.sup.faults) (g : anyLatched t = true) : anyLatched u = true := by
    rw [← g]; exact anyLatched_congr e
  cases r
  · show anyLatched (reelAdvance b s) = true
    rw [(reelAdvance_does b s).2.2]; split
    · exact raiseCondition_keepsLatch b _ h
    · exact h
  · exact same (congrArg (·.sup.faults) (activateLanes_does _ _ s).2.2) h
  · show anyLatched (soundAdvance b s) = true
    have u : anyLatched (soundBegins b s) = true := same (by rw [soundBegins_eq]) h
    rw [(soundAdvance_does b s).2.2]; split
    · exact judgeStarved_keepsLatch b _ _ _ _ u
    · exact u
  · show anyLatched (pictureAdvance b s) = true
    rw [(pictureAdvance_does b s).2.2]; split
    · exact judgeStarved_keepsLatch b _ _ _ _ h
    · exact h
  · exact same (by rw [show react b s .countdown = countdownAdvance b s from rfl, (countdownAdvance_does b s).2]) h
  · exact (countAdvance_keeps b s).2.2.2.2 h
  · exact raiseCondition_keepsLatch b _ h

/-! ### Orders of reactions -/

theorem raisedBy_injective {r q : Reaction} {k : FaultKind} (hr : raisedBy r = some k) (hq : raisedBy q = some k) : r = q := by
  revert hr hq; cases r <;> cases q <;> cases k <;> simp [raisedBy]

theorem conditionEntry_same (p : Policy) (k : FaultKind) (v : Bool) (e : FaultEntry) : conditionEntry p k v v e = e := by
  cases v <;> rfl

/-- An order that holds a reaction once, cut at it. -/
theorem split_once {order : List Reaction} {own : Reaction} (h : order.count own = 1) :
    ∃ before after, order = before ++ own :: after ∧ own ∉ before ∧ own ∉ after := by
  obtain ⟨before, after, rfl⟩ := List.append_of_mem (List.count_pos_iff.mp (by omega : 0 < order.count own))
  rw [List.count_append, List.count_cons_self] at h
  exact ⟨before, after, rfl, List.count_eq_zero.mp (by omega), List.count_eq_zero.mp (by omega)⟩

theorem open_iff (s : State) : outputCondition s = .openOutput ↔ anyLatched s = false ∧ s.sup.countdown = 0 := by
  unfold outputCondition
  cases anyLatched s
  · by_cases h : 0 < s.sup.countdown
    · simp [h]; omega
    · simp [h]; omega
  · simp

/-- A latch stands after the reactions when it stood before them. -/
theorem foldl_keepsLatch (b : GainRamp) (order : List Reaction) : ∀ {s : State}, anyLatched s = true →
    anyLatched (order.foldl (react b) s) = true := by
  induction order with
  | nil => exact fun h => h
  | cons r rs ih => exact fun h => ih (react_keepsLatch b r h)

/-! ### The committed flag -/

theorem raiseFault_committed (b : GainRamp) (k : FaultKind) (s : State) :
    (raiseFault b k s).ctl.committed = s.ctl.committed := by
  rw [(raiseFault_show b k s).1]; split <;> rfl

/-- The events that the Count Unit alone sets, COMMITTED, LOG_HIGH and STORE_DONE, are pending as they were. -/
def CountEventsSame (l m : Link) : Prop :=
  ∀ e, e = 2 ∨ e = 3 ∨ e = 6 → m.eventPending.getLsbD e = l.eventPending.getLsbD e

theorem CountEventsSame.of_or {l m : Link} {x : BitVec 7} (h : m.eventPending = l.eventPending ||| x)
    (n : x &&& 76#7 = 0#7) : CountEventsSame l m := by
  have bit (e : Nat) (he : (76#7).getLsbD e = true) : x.getLsbD e = false := by
    have := congrArg (·.getLsbD e) n; simpa [he] using this
  intro e he
  rw [h, BitVec.getLsbD_or]
  rcases he with rfl | rfl | rfl <;> rw [bit _ (by decide), Bool.or_false]

/-- The committed flag, the Count Unit and its events are as they were. -/
def Uncommitted (s t : State) : Prop :=
  t.ctl.committed = s.ctl.committed ∧ t.count = s.count ∧ CountEventsSame s.link t.link

theorem Uncommitted.of_same {s t : State} (ctl : t.ctl.committed = s.ctl.committed) (count : t.count = s.count)
    (link : t.link.eventPending = s.link.eventPending) : Uncommitted s t := ⟨ctl, count, fun _ _ => by rw [link]⟩

theorem Uncommitted.trans {s t u : State} (h : Uncommitted s t) (g : Uncommitted t u) : Uncommitted s u :=
  ⟨g.1.trans h.1, g.2.1.trans h.2.1, fun e he => (g.2.2 e he).trans (h.2.2 e he)⟩

theorem Uncommitted.refl (s : State) : Uncommitted s s := .of_same rfl rfl rfl

theorem raiseFault_uncommitted (b : GainRamp) (k : FaultKind) (s : State) : Uncommitted s (raiseFault b k s) := by
  refine ⟨raiseFault_committed b k s, by rw [raiseFault_eq]; rfl, ?_⟩
  rw [raiseFault_eq]
  refine CountEventsSame.of_or (x := (if (policyOfKind s k).policy = .ignore then 0#7 else 1#7) |||
    (if (decide ((policyOfKind s k).policy = .latch) && decide (s.ctl.state = .running)) = true then 2#7 else 0#7)) ?_ ?_
  · rw [← BitVec.or_assoc]; rfl
  · split <;> split <;> decide

theorem raiseCondition_uncommitted (b : GainRamp) (k : FaultKind) (s : State) : Uncommitted s (raiseCondition b k s) := by
  unfold raiseCondition; split
  · exact .refl s
  · exact Uncommitted.trans (by cases k <;> exact .of_same rfl rfl rfl) (raiseFault_uncommitted b k _)

theorem judgeStarved_uncommitted (b : GainRamp) (k : FaultKind) (behind : Bool) (late limit : Nat) (s : State) :
    Uncommitted s (judgeStarved b k behind late limit s) := by
  unfold judgeStarved; split
  · split
    · exact raiseCondition_uncommitted b k s
    · exact .refl s
  · split
    · cases k <;> exact .of_same rfl rfl rfl
    · exact .refl s

/-- Only the Count Unit's reaction touches the committed flag and the Count Unit. -/
theorem react_uncommitted (b : GainRamp) (s : State) (r : Reaction) (h : r ≠ .count) : Uncommitted s (react b s r) := by
  cases r
  · show Uncommitted s (reelAdvance b s)
    rw [(reelAdvance_does b s).2.2]; split
    · exact raiseCondition_uncommitted b _ s
    · exact .of_same rfl rfl rfl
  · show Uncommitted s (activateLanes s.ctl.position (activationBound s) s)
    obtain ⟨_, l, e⟩ := activateLanes_does s.ctl.position (activationBound s) s
    refine ⟨by rw [e], by rw [e], ?_⟩
    rw [l]
    exact .of_or (BitVec.or_assoc ..) (by split <;> split <;> decide)
  · show Uncommitted s (soundAdvance b s)
    have begins : Uncommitted s (soundBegins b s) := by rw [soundBegins_eq]; exact .of_same rfl rfl rfl
    rw [(soundAdvance_does b s).2.2]; split
    · exact begins.trans (judgeStarved_uncommitted b _ _ _ _ _)
    · exact begins
  · show Uncommitted s (pictureAdvance b s)
    rw [(pictureAdvance_does b s).2.2]; split
    · exact judgeStarved_uncommitted b _ _ _ _ (s.setUnpack _)
    · exact .of_same rfl rfl rfl
  · show Uncommitted s (countdownAdvance b s)
    unfold countdownAdvance outputReturned; dsimp only; split
    · split <;> exact .of_same rfl rfl rfl
    · exact .of_same rfl rfl rfl
  · exact absurd rfl h
  · exact raiseCondition_uncommitted b _ s

end Sys2Proof.Machine
end

