-- ==== Sys2Proof/Laws/Views.lean ====
section
/-! SUPPORT. Laws/Views.lean: what an advance does to the countdown, the latched set, the show state and the gain ramp: its raises
in the order in which they come, and the countdown's own step among them (R94, R147 to R151). -/

namespace Sys2Proof.Machine

/-! ### What a raise and the countdown's step do to it -/

/-- What the output condition and the sound's ramp hang on. -/
structure View where
  countdown : Nat
  latched : Bool
  state : ShowState
  ramp : GainRamp

/-- The view of a state. -/
def viewOf (s : State) : View :=
  { countdown := s.sup.countdown, latched := anyLatched s, state := s.ctl.state, ramp := s.sound.ramp }

/-- The output is OPEN. -/
def View.isOpen (v : View) : Bool := !v.latched && v.countdown == 0

/-- A raise under LATCH holds the show (R151). -/
def View.holds (p : Policy) (v : View) : Bool := p = .latch && v.state = .running

/-- A raise takes the output from OPEN (R147). -/
def View.leaves (p : Policy) (v : View) : Bool := v.isOpen && (p = .timed || p = .latch)

/-- A view after a raise (R94, R147, R151). -/
def View.raise (e : PolicyEntry) (silence : GainRamp) (v : View) : View where
  countdown := if e.policy = .timed ∧ v.latched = false then Nat.max v.countdown e.blank else v.countdown
  latched := v.latched || e.policy = .latch
  state := if v.holds e.policy then .held else v.state
  ramp := if v.holds e.policy || v.leaves e.policy && (v.state ≠ .empty && v.state ≠ .loaded) then silence else v.ramp

/-- A view after the countdown's step (R94, R149). -/
def View.tick (unity : GainRamp) (v : View) : View :=
  { v with
    countdown := v.countdown - 1
    ramp := if v.latched = false ∧ v.countdown = 1 ∧ v.state = .running then unity else v.ramp }

/-- The ramp that a trigger starts, the gain ramp record before the event given (R93). -/
def rampFor (before : GainRamp) (target : RampTarget) (s : State) : GainRamp := rampTo { s.sound with ramp := before } target

theorem rampFor_kept {s t : State} (h : Kept s t) (b : GainRamp) (g : RampTarget) : rampFor b g t = rampFor b g s := by
  simp only [rampFor, rampTo, h.soundFrontier, h.rampLength]

theorem open_view (s : State) : outputCondition s = .openOutput ↔ (viewOf s).isOpen = true := by
  rw [open_iff]; simp [View.isOpen, viewOf]

theorem isPrimed_view (s : State) : isPrimed s = (decide ((viewOf s).state ≠ .empty) && decide ((viewOf s).state ≠ .loaded)) := by
  show isPrimed s = (decide (s.ctl.state ≠ .empty) && decide (s.ctl.state ≠ .loaded))
  unfold isPrimed; cases s.ctl.state <;> rfl

theorem anyLatched_raiseFault (b : GainRamp) (k : FaultKind) (s : State) :
    anyLatched (raiseFault b k s) = (anyLatched s || (policyOfKind s k).policy = .latch) := by
  rw [Bool.eq_iff_iff]
  simp only [anyLatched_iff, raiseFault_faultOf, Bool.or_eq_true, decide_eq_true_eq]
  constructor
  · rintro ⟨m, hm⟩
    by_cases e : k = m
    · rw [if_pos e] at hm
      rcases (Bool.or_eq_true _ _).mp hm with h | h
      · exact .inl ⟨k, h⟩
      · exact .inr (of_decide_eq_true h)
    · rw [if_neg e] at hm; exact .inl ⟨m, hm⟩
  · rintro (⟨m, hm⟩ | h)
    · refine ⟨m, ?_⟩
      split
      · rename_i e; subst e; simp [raisedEntry, hm]
      · exact hm
    · exact ⟨k, by rw [if_pos rfl]; simp [raisedEntry, h]⟩

theorem viewOf_raiseFault (b : GainRamp) (k : FaultKind) (s : State) :
    viewOf (raiseFault b k s) = (viewOf s).raise (policyOfKind s k) (rampFor b .silence s) := by
  have latched := anyLatched_raiseFault b k s
  have leaves : (outputCondition s = .openOutput) = ((viewOf s).isOpen = true) := propext (open_view s)
  unfold viewOf
  rw [latched, raiseFault_countdown_eq, (raiseFault_show b k s).1, raiseFault_eq]
  simp only [View.raise, afterRaise, isPrimed_view, leaves, rampFor]
  unfold View.holds View.leaves viewOf
  congr 1
  · split <;> rfl
  · simp

/-! ### What each reaction does to it -/

/-- A commit is due at the Count Unit (R135). -/
def CommitMade (s : State) : Prop :=
  isFull s = true ∧ commitDue s = true ∧ s.ctl.record.isSome = true ∧ s.count.reserved.isSome = true

/-- A commit is due and finds the store FAILED (R140). -/
def CommitFails (s : State) : Prop := CommitMade s ∧ s.count.status = .failed

/-- A kind was raised between two states of an advance. -/
def FiresAt (s t : State) (k : FaultKind) : Prop :=
  (detectorOf s k = false ∧ detectorOf t k = true) ∨ (k = .storeFail ∧ CommitFails s)

/-- The one raise of kind `k` that a reaction can make, from the view `v`, made or not. -/
def Steps (b : GainRamp) (k : FaultKind) (s : State) (v : View) (t : State) : Prop :=
  (FiresAt s t k ∧ viewOf t = v.raise (policyOfKind s k) (rampFor b .silence s)) ∨ (¬ FiresAt s t k ∧ viewOf t = v)

theorem fires_iff {s t s' t' : State} {k : FaultKind} (d : detectorOf s' k = detectorOf s k)
    (d' : detectorOf t' k = detectorOf t k) (c : k = .storeFail → (CommitFails s' ↔ CommitFails s)) :
    FiresAt s' t' k ↔ FiresAt s t k := by
  unfold FiresAt; rw [d, d']
  constructor <;> rintro (h | ⟨h, g⟩)
  · exact .inl h
  · exact .inr ⟨h, (c h).mp g⟩
  · exact .inl h
  · exact .inr ⟨h, (c h).mpr g⟩

theorem viewOf_setDetector (k : FaultKind) (v : Bool) (s : State) : viewOf (setDetector k v s) = viewOf s := by
  cases k <;> rfl

theorem viewOf_withdraw (k : FaultKind) (s : State) : viewOf (withdraw k s) = viewOf s := by
  rw [← viewOf_setDetector k false s]
  unfold withdraw viewOf
  rw [anyLatched_modFault (f := fun e => { e with condition := false }) fun _ => rfl]
  rfl

theorem not_storeFail {k : FaultKind} (h : isConditionKind k = true) : k ≠ .storeFail := by rintro rfl; exact absurd h (by decide)

theorem raiseCondition_steps {k : FaultKind} (h : isConditionKind k = true) (b : GainRamp) (s : State) :
    Steps b k s (viewOf s) (raiseCondition b k s) := by
  have own := (raiseCondition_own h b s).1
  cases hd : detectorOf s k
  · refine .inl ⟨.inl ⟨hd, own⟩, ?_⟩
    unfold raiseCondition
    rw [if_neg (by simp [hd]), viewOf_raiseFault, viewOf_setDetector, policyOfKind_setDetector,
      show rampFor b .silence (setDetector k true s) = rampFor b .silence s by cases k <;> rfl]
  · refine .inr ⟨?_, by unfold raiseCondition; rw [if_pos hd]⟩
    rintro (⟨g, _⟩ | ⟨g, _⟩)
    · simp [hd] at g
    · exact not_storeFail h g

theorem Steps.none {b : GainRamp} {k : FaultKind} (h : isConditionKind k = true) {s t : State} {v : View}
    (d : detectorOf s k = false → detectorOf t k = false) (e : viewOf t = v) : Steps b k s v t := by
  refine .inr ⟨?_, e⟩
  rintro (⟨g, g'⟩ | ⟨g, _⟩)
  · simp [d g] at g'
  · exact not_storeFail h g

theorem judgeStarved_steps {k : FaultKind} (h : isConditionKind k = true) (b : GainRamp) (behind : Bool) (late limit : Nat)
    (s : State) : Steps b k s (viewOf s) (judgeStarved b k behind late limit s) := by
  unfold judgeStarved; split
  · split
    · exact raiseCondition_steps h b s
    · exact .none h id rfl
  · split
    · rename_i hd
      exact .none h (fun c => absurd (hd.symm.trans c) (by decide)) (viewOf_withdraw k s)
    · exact .none h id rfl

/-- A step from a state that differs in nothing the raise reads. -/
theorem Steps.of_same {b : GainRamp} {k : FaultKind} (h : isConditionKind k = true) {s x t : State} {v : View}
    (d : detectorOf x k = detectorOf s k) (p : x.sup.policies = s.sup.policies)
    (r : rampFor b .silence x = rampFor b .silence s) (g : Steps b k x v t) : Steps b k s v t := by
  have e : policyOfKind x k = policyOfKind s k := by simp [policyOfKind, p]
  have f := fires_iff (s := s) (t := t) (s' := x) (t' := t) d rfl fun c => absurd c (not_storeFail h)
  unfold Steps at *
  rwa [f, e, r] at g

theorem judgeStarved_steps_of {k : FaultKind} (h : isConditionKind k = true) (b : GainRamp) (behind : Bool) (late limit : Nat)
    {s x : State} {v : View} (d : detectorOf x k = detectorOf s k) (p : x.sup.policies = s.sup.policies)
    (r : rampFor b .silence x = rampFor b .silence s) (e : viewOf x = v) :
    Steps b k s v (judgeStarved b k behind late limit x) :=
  .of_same h d p r (e ▸ judgeStarved_steps h b behind late limit x)

theorem commitDue_countBlanked (s : State) : commitDue (countBlanked s) = commitDue s := by
  unfold countBlanked; split <;> rfl

/-- The events that the Count Unit does not set, FAULT, SHOW_STATE and the lanes' two, are pending as they were. -/
def ShowEventsSame (l m : Link) : Prop :=
  ∀ e, e = 0 ∨ e = 1 ∨ e = 4 ∨ e = 5 → m.eventPending.getLsbD e = l.eventPending.getLsbD e

theorem ShowEventsSame.of_or {l m : Link} {x : BitVec 7} (h : m.eventPending = l.eventPending ||| x) (n : x &&& 51#7 = 0#7) :
    ShowEventsSame l m := by
  have bit (e : Nat) (he : (51#7).getLsbD e = true) : x.getLsbD e = false := by
    have := congrArg (·.getLsbD e) n; simpa [he] using this
  intro e he
  rw [h, BitVec.getLsbD_or]
  rcases he with rfl | rfl | rfl | rfl <;> rw [bit _ (by decide), Bool.or_false]

theorem ShowEventsSame.refl (l : Link) : ShowEventsSame l l := fun _ _ => rfl

theorem ShowEventsSame.trans {l m n : Link} (h : ShowEventsSame l m) (g : ShowEventsSame m n) : ShowEventsSame l n :=
  fun e he => (g e he).trans (h e he)

/-- Nothing that the view, a raise and its ramp hang on differs, nor the Show Clock and the show's events. -/
structure SameView (s t : State) : Prop where
  sup : t.sup = s.sup
  state : t.ctl.state = s.ctl.state
  sound : t.sound = s.sound
  clock : t.clock = s.clock
  events : ShowEventsSame s.link t.link

theorem SameView.refl (s : State) : SameView s s := ⟨rfl, rfl, rfl, rfl, .refl _⟩

theorem SameView.trans {s t u : State} (h : SameView s t) (g : SameView t u) : SameView s u :=
  ⟨g.sup.trans h.sup, g.state.trans h.state, g.sound.trans h.sound, g.clock.trans h.clock, h.events.trans g.events⟩

theorem SameView.view {s t : State} (h : SameView s t) : viewOf t = viewOf s := by
  unfold viewOf; rw [h.sup, h.state, h.sound, anyLatched_congr (congrArg (·.faults) h.sup)]

/-- What a commit does before it comes to the store. -/
theorem commitShowing_before (b : GainRamp) (r : ShowRecord) (slot : Fin 8) (s : State) :
    ∃ x, commitShowing b r slot s = storeCommit b slot x ∧ SameView s x ∧ x.count.status = s.count.status ∧
      x.ctl.committed = true := by
  refine ⟨_, rfl, ⟨?_, ?_, ?_, ?_, ?_⟩, ?_, rfl⟩
  case refine_5 =>
    unfold appendShowing; dsimp only; split
    · exact .of_or (x := 8#7 ||| 4#7) (BitVec.or_assoc ..) (by decide)
    · exact .of_or (x := 4#7) rfl (by decide)
  all_goals unfold appendShowing; dsimp only; split <;> rfl

theorem countBlanked_same (s : State) : SameView s (countBlanked s) ∧ (countBlanked s).ctl = s.ctl ∧
    (countBlanked s).count.reserved = s.count.reserved ∧ (countBlanked s).count.status = s.count.status := by
  unfold countBlanked; split <;> exact ⟨⟨rfl, rfl, rfl, rfl, .refl _⟩, rfl, rfl, rfl⟩

/-- The Count Unit's reaction where no commit is due: the blanked count alone (R134). -/
theorem countAdvance_uncommitted (b : GainRamp) {s : State} (h : ¬ CommitMade s) :
    countAdvance b s = s ∨ countAdvance b s = countBlanked s := by
  obtain ⟨_, bc, bs, _⟩ := countBlanked_same s
  unfold countAdvance
  by_cases hf : isFull s = true
  · rw [if_pos hf]; dsimp only
    rw [commitDue_countBlanked]
    by_cases hd : commitDue s = true
    · rw [if_pos hd]
      split
      · rename_i r i er es
        exact absurd ⟨hf, hd, by simp [← bc, er], by simp [← bs, es]⟩ h
      · exact .inr rfl
    · rw [if_neg hd]; exact .inr rfl
  · rw [if_neg hf]; exact .inl rfl

/-- The Count Unit's reaction where a commit is due: the commit, after the blanked count (R134, R135). -/
theorem countAdvance_commits (b : GainRamp) {s : State} (h : CommitMade s) :
    ∃ x slot, countAdvance b s = storeCommit b slot x ∧ SameView s x ∧ x.count.status = s.count.status ∧
      x.ctl.committed = true := by
  obtain ⟨hf, hd, hr, hs⟩ := h
  obtain ⟨bv, bc, bs, bt⟩ := countBlanked_same s
  obtain ⟨r, er⟩ := Option.isSome_iff_exists.mp hr
  obtain ⟨slot, es⟩ := Option.isSome_iff_exists.mp hs
  obtain ⟨x, e, v, t, c⟩ := commitShowing_before b r slot (countBlanked s)
  refine ⟨x, slot, ?_, bv.trans v, t.trans bt, c⟩
  rw [← e]
  unfold countAdvance; rw [if_pos hf]; dsimp only
  rw [commitDue_countBlanked, if_pos hd, bc, bs, er, es]

/-- What the Count Unit's reaction comes to for the view (R140): a raise of STORE_FAIL where a commit finds the store FAILED. -/
theorem countAdvance_cases (b : GainRamp) (s : State) :
    (CommitFails s ∧ ∃ x, countAdvance b s = raiseFault b .storeFail x ∧ SameView s x) ∨
      (¬ CommitFails s ∧ SameView s (countAdvance b s)) := by
  by_cases h : CommitMade s
  · obtain ⟨x, slot, e, v, t, _⟩ := countAdvance_commits b h
    rw [e]; unfold storeCommit; rw [t]
    split
    · rename_i c; exact .inr ⟨fun f => absurd (c.symm.trans f.2) nofun, v.trans ⟨rfl, rfl, rfl, rfl, .refl _⟩⟩
    · rename_i c; exact .inr ⟨fun f => absurd (c.symm.trans f.2) nofun, v.trans ⟨rfl, rfl, rfl, rfl, .refl _⟩⟩
    · rename_i c; exact .inl ⟨⟨h, c⟩, _, rfl, v.trans ⟨rfl, rfl, rfl, rfl, .refl _⟩⟩
  · refine .inr ⟨fun f => h f.1, ?_⟩
    rcases countAdvance_uncommitted b h with e | e <;> rw [e]
    · exact .refl s
    · exact (countBlanked_same s).1

/-- The Count Unit's raise. -/
theorem countAdvance_steps (b : GainRamp) (s : State) : Steps b .storeFail s (viewOf s) (countAdvance b s) := by
  have fires (t : State) : FiresAt s t .storeFail ↔ CommitFails s :=
    ⟨fun h => h.elim (fun c => absurd c.2 (by simp [detectorOf])) (·.2), fun h => .inr ⟨rfl, h⟩⟩
  unfold Steps; simp only [fires]
  rcases countAdvance_cases b s with ⟨f, x, e, v⟩ | ⟨f, v⟩
  · refine .inl ⟨f, ?_⟩
    rw [e, viewOf_raiseFault, v.view, show policyOfKind x .storeFail = policyOfKind s .storeFail by simp [policyOfKind, v.sup],
      show rampFor b .silence x = rampFor b .silence s by simp [rampFor, v.sound]]
  · exact .inr ⟨f, v.view⟩

/-- The Count Unit's reaction and the entry of STORE_FAIL (R140, R147). -/
theorem countAdvance_storeFail (b : GainRamp) (s : State) :
    (CommitFails s → faultOf (countAdvance b s) .storeFail =
      raisedEntry (policyOfKind s .storeFail).policy .storeFail (faultOf s .storeFail)) ∧
    (¬ CommitFails s → faultOf (countAdvance b s) .storeFail = faultOf s .storeFail) := by
  rcases countAdvance_cases b s with ⟨f, x, e, v⟩ | ⟨f, v⟩
  · refine ⟨fun _ => ?_, fun n => absurd f n⟩
    rw [e, raiseFault_faultOf, if_pos rfl]; simp [policyOfKind, faultOf, v.sup]
  · exact ⟨fun g => absurd g f, fun _ => by simp [faultOf, v.sup]⟩

/-- The Sound Stage's beginning changes the ramp alone, and at the final advance alone (R94). -/
theorem viewOf_soundBegins (b : GainRamp) (s : State) : viewOf (soundBegins b s) =
    { viewOf s with ramp := if s.ctl.position = showTotal s then rampFor b .silence s else s.sound.ramp } := by
  unfold soundBegins; split <;> rfl

/-- The view that a reaction's raise finds: the Sound Stage's ramp of the final advance comes first. -/
def found (b : GainRamp) (r : Reaction) (s : State) : View := if r = .sound then viewOf (soundBegins b s) else viewOf s

/-- What a reaction other than the countdown's does: nothing, or its one raise. -/
theorem react_steps (b : GainRamp) (s : State) (r : Reaction) (h : r ≠ .countdown) :
    (raisedBy r = .none ∧ viewOf (react b s r) = viewOf s) ∨
      ∃ k, raisedBy r = some k ∧ Steps b k s (found b r s) (react b s r) := by
  cases r
  · refine .inr ⟨_, rfl, ?_⟩
    show Steps b .keyLapsed s (viewOf s) (reelAdvance b s)
    rw [(reelAdvance_does b s).2.2]; split
    · exact raiseCondition_steps rfl b s
    · exact .none rfl id rfl
  · refine .inl ⟨rfl, ?_⟩
    show viewOf (activateLanes s.ctl.position (activationBound s) s) = viewOf s
    rw [(activateLanes_does _ _ s).2.2]; rfl
  · refine .inr ⟨_, rfl, ?_⟩
    show Steps b .soundStarved s (viewOf (soundBegins b s)) (soundAdvance b s)
    have d := (soundBegins_stays .soundStarved b s).1
    have p : (soundBegins b s).sup.policies = s.sup.policies := by rw [soundBegins_eq]
    have r : rampFor b .silence (soundBegins b s) = rampFor b .silence s := by rw [soundBegins_eq]; rfl
    rw [(soundAdvance_does b s).2.2]; split
    · exact judgeStarved_steps_of rfl b _ _ _ d p r rfl
    · exact .none rfl (fun c => d.trans c) rfl
  · refine .inr ⟨_, rfl, ?_⟩
    show Steps b .pictureStarved s (viewOf s) (pictureAdvance b s)
    rw [(pictureAdvance_does b s).2.2]; split
    · exact judgeStarved_steps_of rfl b _ _ _ rfl rfl rfl rfl
    · exact .none rfl id rfl
  · exact absurd rfl h
  · exact .inr ⟨_, rfl, countAdvance_steps b s⟩
  · exact .inr ⟨_, rfl, raiseCondition_steps rfl b s⟩

/-- The countdown's step. -/
theorem viewOf_countdownAdvance (b : GainRamp) (s : State) :
    viewOf (countdownAdvance b s) = (viewOf s).tick (rampFor b .unity s) := by
  have latch : anyLatched (s.setSup { s.sup with countdown := s.sup.countdown - 1 }) = anyLatched s := anyLatched_congr rfl
  have timed : (outputCondition s = .blankTimed ∧
      outputCondition (s.setSup { s.sup with countdown := s.sup.countdown - 1 }) = .openOutput) ↔
      anyLatched s = false ∧ s.sup.countdown = 1 := by
    rw [open_iff, latch]
    unfold outputCondition
    cases anyLatched s
    · by_cases c : 0 < s.sup.countdown
      · simp [c, State.setSup]; omega
      · simp [c]; omega
    · simp
  have view (c : Nat) (r : GainRamp) (h : c = s.sup.countdown - 1)
      (g : r = if anyLatched s = false ∧ s.sup.countdown = 1 ∧ s.ctl.state = .running then rampFor b .unity s else s.sound.ramp) :
      View.mk c (anyLatched s) s.ctl.state r = (viewOf s).tick (rampFor b .unity s) := by subst h g; rfl
  unfold countdownAdvance; dsimp only
  by_cases h : anyLatched s = false ∧ s.sup.countdown = 1
  · rw [if_pos (timed.mpr h)]
    unfold outputReturned isRunning
    by_cases r : s.ctl.state = .running
    · rw [if_pos (by simpa using r)]
      exact (congrArg (View.mk _ · _ _) latch).trans (view _ _ rfl (if_pos ⟨h.1, h.2, r⟩).symm)
    · rw [if_neg (by simpa using r)]
      exact (congrArg (View.mk _ · _ _) latch).trans (view _ _ rfl (if_neg fun c => r c.2.2).symm)
  · rw [if_neg fun c => h (timed.mp c)]
    exact (congrArg (View.mk _ · _ _) latch).trans (view _ _ rfl (if_neg fun c => h ⟨c.1, c.2.1⟩).symm)

/-! ### An order of reactions as its raises and the countdown's step -/

/-- What moves a view: a raise of a kind, or the countdown's step. -/
def View.move (policy : FaultKind → PolicyEntry) (silence unity : GainRamp) (v : View) : Option FaultKind → View
  | some k => v.raise (policy k) silence
  | none => v.tick unity

theorem react_commitFails (b : GainRamp) (s : State) {r : Reaction} (h : r ≠ .count) :
    (CommitMade (react b s r) ↔ CommitMade s) ∧ (CommitFails (react b s r) ↔ CommitFails s) := by
  have k := react_kept b s r
  obtain ⟨c, n, _⟩ := react_uncommitted b s r h
  unfold CommitFails CommitMade isFull commitDue
  rw [k.mark, k.position, k.commitUnit, k.record, c, n]
  exact ⟨Iff.rfl, Iff.rfl⟩

/-- What a reaction fires, another does not touch. -/
theorem fires_react {b : GainRamp} {s t : State} {r q : Reaction} {k : FaultKind} (h : r ≠ q) (hq : raisedBy q = some k) :
    FiresAt (react b s r) t k ↔ FiresAt s t k :=
  fires_iff (react_stays (fun c => h (raisedBy_injective c hq)) b s).1 rfl fun c =>
    (react_commitFails b s fun e => h (e.trans (raisedBy_injective (c ▸ hq) rfl).symm)).2

/-- An order of reactions moves the view by the raises that fire in it and the countdown's step, in its order.  `g` forgets what the
final advance's ramp sets. -/
theorem foldl_moves {b : GainRamp} {start : State} {policy : FaultKind → PolicyEntry} {silence unity : GainRamp} (g : View → View)
    (raises : ∀ v k, g (v.raise (policy k) silence) = (g v).raise (policy k) silence)
    (ticks : ∀ t, Kept start t → g ((viewOf t).tick unity) = (g (viewOf t)).tick unity)
    (fades : ∀ t, Kept start t → g (viewOf (soundBegins b t)) = g (viewOf t))
    (hp : ∀ k, policyOfKind start k = policy k) (hs : rampFor b .silence start = silence)
    (hu : rampFor b .unity start = unity) (order : List Reaction) : ∀ t, Kept start t → order.Nodup →
      ∃ moves : List (Option FaultKind), moves.Nodup ∧ (none ∈ moves ↔ Reaction.countdown ∈ order) ∧
        (∀ k, some k ∈ moves ↔ ∃ r ∈ order, raisedBy r = some k ∧ FiresAt t (order.foldl (react b) t) k) ∧
        g (viewOf (order.foldl (react b) t)) = moves.foldl (View.move policy silence unity) (g (viewOf t)) := by
  induction order with
  | nil => exact fun t _ _ => ⟨[], .nil, by simp, by simp, rfl⟩
  | cons r rs ih =>
    intro t ht nodup
    obtain ⟨fresh, rest⟩ := List.nodup_cons.mp nodup
    have hr := ht.trans (react_kept b t r)
    obtain ⟨moves, m1, m2, m3, m4⟩ := ih (react b t r) hr rest
    have other (q : Reaction) (hq : q ∈ rs) : r ≠ q := by rintro rfl; exact fresh hq
    have later (k : FaultKind) : some k ∈ moves ↔
        ∃ q ∈ rs, raisedBy q = some k ∧ FiresAt t (rs.foldl (react b) (react b t r)) k := by
      rw [m3]
      constructor
      · rintro ⟨q, hq, hk, f⟩; exact ⟨q, hq, hk, (fires_react (other q hq) hk).mp f⟩
      · rintro ⟨q, hq, hk, f⟩; exact ⟨q, hq, hk, (fires_react (other q hq) hk).mpr f⟩
    have policyAt (k : FaultKind) : policyOfKind t k = policy k := by rw [← hp]; simp [policyOfKind, ht.policies]
    simp only [List.foldl_cons]
    by_cases e : r = .countdown
    · subst e
      have none_mem : none ∉ moves := fun c => fresh (m2.mp c)
      refine ⟨none :: moves, List.nodup_cons.mpr ⟨none_mem, m1⟩, by simp, fun k => ?_, ?_⟩
      · simp only [List.mem_cons, reduceCtorEq, false_or, later]
        exact ⟨fun ⟨q, hq, h⟩ => ⟨q, .inr hq, h⟩, fun ⟨q, hq, h⟩ => ⟨q, hq.resolve_left (by rintro rfl; simp [raisedBy] at h), h⟩⟩
      · rw [m4, List.foldl_cons]
        congr 1
        rw [show react b t .countdown = countdownAdvance b t from rfl, viewOf_countdownAdvance, rampFor_kept ht, hu]
        exact ticks t ht
    · have tick_iff : none ∈ moves ↔ Reaction.countdown ∈ r :: rs := by
        rw [m2, List.mem_cons]; exact ⟨.inr, fun h => h.resolve_left fun c => e c.symm⟩
      have found_eq : g (found b r t) = g (viewOf t) := by
        unfold found; split
        · exact fades t ht
        · rfl
      rcases react_steps b t r e with ⟨n, v⟩ | ⟨k, hk, step⟩
      · refine ⟨moves, m1, tick_iff, fun k => ?_, by rw [m4, v]⟩
        rw [later]
        exact ⟨fun ⟨q, hq, h⟩ => ⟨q, List.mem_cons_of_mem _ hq, h⟩, fun ⟨q, hq, h⟩ =>
          ⟨q, (List.mem_cons.mp hq).resolve_left (by rintro rfl; simp [n] at h), h⟩⟩
      · have mine : FiresAt t (rs.foldl (react b) (react b t r)) k ↔ FiresAt t (react b t r) k :=
          fires_iff rfl (foldl_stays b rs _ fun q hq c => fresh (raisedBy_injective hk c ▸ hq)).1 fun _ => Iff.rfl
        have k_mem : some k ∉ moves := by
          rw [later]; rintro ⟨q, hq, h, _⟩; exact fresh (raisedBy_injective hk h ▸ hq)
        rcases step with ⟨fired, v⟩ | ⟨quiet, v⟩
        · refine ⟨some k :: moves, List.nodup_cons.mpr ⟨k_mem, m1⟩, by simpa using tick_iff, fun j => ?_, ?_⟩
          · rw [List.mem_cons, later]
            constructor
            · rintro (h | ⟨q, hq, h⟩)
              · obtain rfl := Option.some.inj h
                exact ⟨r, List.mem_cons_self, hk, mine.mpr fired⟩
              · exact ⟨q, List.mem_cons_of_mem _ hq, h⟩
            · rintro ⟨q, hq, h, f⟩
              rcases List.mem_cons.mp hq with rfl | hq
              · exact .inl (h.symm.trans hk)
              · exact .inr ⟨q, hq, h, f⟩
          · rw [m4, List.foldl_cons, v, policyAt, rampFor_kept ht, hs, raises, found_eq]; rfl
        · refine ⟨moves, m1, tick_iff, fun j => ?_, by rw [m4, v, found_eq]⟩
          rw [later]
          constructor
          · rintro ⟨q, hq, h⟩; exact ⟨q, List.mem_cons_of_mem _ hq, h⟩
          · rintro ⟨q, hq, h, f⟩
            rcases List.mem_cons.mp hq with rfl | hq
            · obtain rfl := Option.some.inj (hk.symm.trans h)
              exact absurd (mine.mp f) quiet
            · exact ⟨q, hq, h, f⟩

/-! ### The show's events and the Show Clock -/

/-- Nothing that a raise's events and its hold hang on differs. -/
structure Quiet (s t : State) : Prop where
  policies : t.sup.policies = s.sup.policies
  state : t.ctl.state = s.ctl.state
  substate : t.clock.substate = s.clock.substate
  deadline : t.clock.anchorDeadline = s.clock.anchorDeadline
  events : ShowEventsSame s.link t.link

theorem Quiet.refl (s : State) : Quiet s s := ⟨rfl, rfl, rfl, rfl, .refl _⟩

theorem Quiet.trans {s t u : State} (h : Quiet s t) (g : Quiet t u) : Quiet s u :=
  ⟨g.policies.trans h.policies, g.state.trans h.state, g.substate.trans h.substate, g.deadline.trans h.deadline,
    h.events.trans g.events⟩

theorem SameView.quiet {s t : State} (h : SameView s t) : Quiet s t :=
  ⟨by rw [h.sup], h.state, by rw [h.clock], by rw [h.clock], h.events⟩

/-- What an operation that can raise one kind does: that one raise, from a state that differs in nothing it hangs on, or none. -/
def Once (b : GainRamp) (k : FaultKind) (s t : State) : Prop :=
  (FiresAt s t k ∧ ∃ x, Quiet s x ∧ t = raiseFault b k x) ∨ (¬ FiresAt s t k ∧ Quiet s t)

theorem setDetector_quiet (k : FaultKind) (v : Bool) (s : State) : Quiet s (setDetector k v s) := by
  cases k <;> exact ⟨rfl, rfl, rfl, rfl, .refl _⟩

theorem not_fires {k : FaultKind} (h : isConditionKind k = true) {s t : State}
    (d : detectorOf s k = false → detectorOf t k = false) : ¬ FiresAt s t k := by
  rintro (⟨g, g'⟩ | ⟨g, _⟩)
  · simp [d g] at g'
  · exact not_storeFail h g

theorem raiseCondition_once {k : FaultKind} (h : isConditionKind k = true) (b : GainRamp) (s : State) :
    Once b k s (raiseCondition b k s) := by
  have own := (raiseCondition_own h b s).1
  unfold raiseCondition at own ⊢
  cases hd : detectorOf s k
  · rw [hd, if_neg (by decide)] at own
    rw [if_neg (by decide)]
    exact .inl ⟨.inl ⟨hd, own⟩, _, setDetector_quiet k true s, rfl⟩
  · rw [if_pos rfl]
    exact .inr ⟨not_fires h id, .refl s⟩

theorem judgeStarved_once {k : FaultKind} (h : isConditionKind k = true) (b : GainRamp) (behind : Bool) (late limit : Nat)
    (s : State) : Once b k s (judgeStarved b k behind late limit s) := by
  unfold judgeStarved; split
  · split
    · exact raiseCondition_once h b s
    · exact .inr ⟨not_fires h id, .refl s⟩
  · split
    · rename_i hd
      exact .inr ⟨not_fires h fun c => absurd (hd.symm.trans c) (by decide),
        (setDetector_quiet k false s).trans ⟨rfl, rfl, rfl, rfl, .refl _⟩⟩
    · exact .inr ⟨not_fires h id, .refl s⟩

/-- A step from a state that differs in nothing the raise hangs on. -/
theorem Once.of_quiet {b : GainRamp} {k : FaultKind} (h : isConditionKind k = true) {s x t : State} (q : Quiet s x)
    (d : detectorOf x k = detectorOf s k) (g : Once b k x t) : Once b k s t := by
  have f := fires_iff (s := s) (t := t) (s' := x) (t' := t) d rfl fun c => absurd c (not_storeFail h)
  unfold Once at *
  rw [f] at g
  exact g.imp (fun ⟨c, y, qy, e⟩ => ⟨c, y, q.trans qy, e⟩) fun ⟨c, qy⟩ => ⟨c, q.trans qy⟩

theorem judgeStarved_once_of {k : FaultKind} (h : isConditionKind k = true) (b : GainRamp) (behind : Bool) (late limit : Nat)
    {s x : State} (q : Quiet s x) (d : detectorOf x k = detectorOf s k) : Once b k s (judgeStarved b k behind late limit x) :=
  .of_quiet h q d (judgeStarved_once h b behind late limit x)

theorem countAdvance_once (b : GainRamp) (s : State) : Once b .storeFail s (countAdvance b s) := by
  rcases countAdvance_cases b s with ⟨f, x, e, v⟩ | ⟨f, v⟩
  · exact .inl ⟨.inr ⟨rfl, f⟩, x, v.quiet, e⟩
  · exact .inr ⟨fun h => h.elim (fun c => absurd c.2 (by simp [detectorOf])) fun c => f c.2, v.quiet⟩

/-- What a reaction but the lanes' does to those events and the Show Clock: nothing, or what its one raise does. -/
theorem react_once (b : GainRamp) (s : State) (r : Reaction) (h : r ≠ .cues) :
    (raisedBy r = none ∧ Quiet s (react b s r)) ∨ ∃ k, raisedBy r = some k ∧ Once b k s (react b s r) := by
  cases r
  · refine .inr ⟨_, rfl, ?_⟩
    show Once b .keyLapsed s (reelAdvance b s)
    rw [(reelAdvance_does b s).2.2]; split
    · exact raiseCondition_once rfl b s
    · exact .inr ⟨not_fires rfl id, .refl s⟩
  · exact absurd rfl h
  · refine .inr ⟨_, rfl, ?_⟩
    show Once b .soundStarved s (soundAdvance b s)
    have q : Quiet s (soundBegins b s) := by rw [soundBegins_eq]; exact ⟨rfl, rfl, rfl, rfl, .refl _⟩
    have d := (soundBegins_stays .soundStarved b s).1
    rw [(soundAdvance_does b s).2.2]; split
    · exact judgeStarved_once_of rfl b _ _ _ (q.trans ⟨rfl, rfl, rfl, rfl, .refl _⟩) d
    · exact .inr ⟨not_fires rfl fun c => d.trans c, q⟩
  · refine .inr ⟨_, rfl, ?_⟩
    show Once b .pictureStarved s (pictureAdvance b s)
    rw [(pictureAdvance_does b s).2.2]; split
    · exact judgeStarved_once_of rfl b _ _ _ ⟨rfl, rfl, rfl, rfl, .refl _⟩ rfl
    · exact .inr ⟨not_fires rfl id, .refl s⟩
  · refine .inl ⟨rfl, ?_⟩
    show Quiet s (countdownAdvance b s)
    unfold countdownAdvance outputReturned; dsimp only; split
    · split <;> exact ⟨rfl, rfl, rfl, rfl, .refl _⟩
    · exact ⟨rfl, rfl, rfl, rfl, .refl _⟩
  · exact .inr ⟨_, rfl, countAdvance_once b s⟩
  · exact .inr ⟨_, rfl, raiseCondition_once rfl b s⟩

/-- What the lanes' reaction does to the events: LANE_A_LOW and LANE_B_LOW alone (R111). -/
theorem laneEvents (s : State) : (∀ e, e = 0 ∨ e = 1 →
      (cueAdvance s).link.eventPending.getLsbD e = s.link.eventPending.getLsbD e) ∧
    (cueAdvance s).link.eventPending.getLsbD 4 =
      (s.link.eventPending.getLsbD 4 || laneLow s.ctl.position (activationBound s) s.cues.laneA) ∧
    (cueAdvance s).link.eventPending.getLsbD 5 =
      (s.link.eventPending.getLsbD 5 || laneLow s.ctl.position (activationBound s) s.cues.laneB) := by
  have l : (cueAdvance s).link = _ := (activateLanes_does s.ctl.position (activationBound s) s).2.1
  rw [l]
  simp only [BitVec.getLsbD_or]
  refine ⟨fun e he => ?_, ?_, ?_⟩
  · rcases he with rfl | rfl <;> split <;> split <;> simp
  all_goals
    cases laneLow s.ctl.position (activationBound s) s.cues.laneA <;>
      cases laneLow s.ctl.position (activationBound s) s.cues.laneB <;> simp

/-- The show goes on, with its clock and its event as they were, or it has been held, the clock IDLE and the event set (R22, R48). -/
def GoesOrHeld (s t : State) : Prop :=
  (t.ctl.state = s.ctl.state ∧ t.clock.substate = s.clock.substate ∧ t.clock.anchorDeadline = s.clock.anchorDeadline ∧
      t.link.eventPending.getLsbD 1 = s.link.eventPending.getLsbD 1) ∨
    (s.ctl.state = .running ∧ t.ctl.state = .held ∧ t.clock.substate = .idle ∧ t.clock.anchorDeadline = none ∧
      t.link.eventPending.getLsbD 1 = true)

theorem Quiet.goes {s t : State} (h : Quiet s t) : GoesOrHeld s t :=
  .inl ⟨h.state, h.substate, h.deadline, h.events 1 (by decide)⟩

theorem GoesOrHeld.trans {s t u : State} (h : GoesOrHeld s t) (g : GoesOrHeld t u) : GoesOrHeld s u := by
  rcases h with ⟨h1, h2, h3, h4⟩ | ⟨h1, h2, h3, h4, h5⟩ <;> rcases g with ⟨g1, g2, g3, g4⟩ | ⟨g1, g2, g3, g4, g5⟩
  · exact .inl ⟨g1.trans h1, g2.trans h2, g3.trans h3, g4.trans h4⟩
  · exact .inr ⟨h1 ▸ g1, g2, g3, g4, g5⟩
  · exact .inr ⟨h1, g1.trans h2, g2.trans h3, g3.trans h4, g4.trans h5⟩
  · exact absurd (h2.symm.trans g1) (by decide)

/-- What a raise does to the FAULT event (R147), to the show (R151), and to the lanes' events. -/
theorem raiseFault_events (b : GainRamp) (k : FaultKind) (s : State) :
    ((raiseFault b k s).link.eventPending.getLsbD 0 = true ↔
      s.link.eventPending.getLsbD 0 = true ∨ (policyOfKind s k).policy ≠ .ignore) ∧ GoesOrHeld s (raiseFault b k s) ∧
      ∀ e, e = 4 ∨ e = 5 → (raiseFault b k s).link.eventPending.getLsbD e = s.link.eventPending.getLsbD e := by
  rw [raiseFault_eq]
  refine ⟨?_, ?_, fun e he => ?_⟩
  · cases h : (policyOfKind s k).policy <;> cases r : s.ctl.state <;> simp [afterRaise, h, r]
  · by_cases h : (policyOfKind s k).policy = .latch ∧ s.ctl.state = .running
    · exact .inr ⟨h.2, by simp [afterRaise, h]⟩
    · refine .inl ?_
      have n : (decide ((policyOfKind s k).policy = .latch) && decide (s.ctl.state = .running)) = false := by simpa using h
      simp only [afterRaise, n, Bool.false_eq_true, if_false]
      refine ⟨trivial, trivial, trivial, ?_⟩
      cases (policyOfKind s k).policy <;> simp
  · simp only [afterRaise, BitVec.getLsbD_or]
    rcases he with rfl | rfl <;> split <;> split <;> simp

theorem react_goes (b : GainRamp) (s : State) (r : Reaction) : GoesOrHeld s (react b s r) := by
  by_cases h : r = .cues
  · subst h
    obtain ⟨_, l, e⟩ := activateLanes_does s.ctl.position (activationBound s) s
    refine .inl ⟨congrArg (·.ctl.state) e, congrArg (·.clock.substate) e, congrArg (·.clock.anchorDeadline) e, ?_⟩
    exact (laneEvents s).1 1 (.inr rfl)
  rcases react_once b s r h with ⟨_, q⟩ | ⟨k, _, ⟨_, x, q, e⟩ | ⟨_, q⟩⟩
  · exact q.goes
  · rw [e]; exact q.goes.trans (raiseFault_events b k x).2.1
  · exact q.goes

theorem foldl_goes (b : GainRamp) (order : List Reaction) : ∀ s, GoesOrHeld s (order.foldl (react b) s) := by
  induction order with
  | nil => exact fun s => (Quiet.refl s).goes
  | cons r rs ih => exact fun s => (react_goes b s r).trans (ih _)

/-- The lanes' events after one reaction: the lanes' own alone changes them (R111). -/
theorem react_laneEvents (b : GainRamp) (s : State) (r : Reaction) (h : r ≠ .cues) {e : Nat} (he : e = 4 ∨ e = 5) :
    (react b s r).link.eventPending.getLsbD e = s.link.eventPending.getLsbD e := by
  have same {t : State} (q : Quiet s t) : t.link.eventPending.getLsbD e = s.link.eventPending.getLsbD e :=
    q.events e (by omega)
  rcases react_once b s r h with ⟨_, q⟩ | ⟨k, _, ⟨_, x, q, c⟩ | ⟨_, q⟩⟩
  · exact same q
  · rw [c, (raiseFault_events b k x).2.2 e he]; exact same q
  · exact same q

/-- The FAULT event after one reaction: pending as it was, or set by the raise that the reaction makes. -/
theorem react_fault (b : GainRamp) (s : State) (r : Reaction) : (react b s r).link.eventPending.getLsbD 0 = true ↔
    s.link.eventPending.getLsbD 0 = true ∨
      ∃ k, raisedBy r = some k ∧ FiresAt s (react b s r) k ∧ (policyOfKind s k).policy ≠ .ignore := by
  by_cases h : r = .cues
  · subst h
    rw [show (react b s .cues).link.eventPending.getLsbD 0 = s.link.eventPending.getLsbD 0 from (laneEvents s).1 0 (.inl rfl)]
    simp [raisedBy]
  rcases react_once b s r h with ⟨n, q⟩ | ⟨k, hk, ⟨f, x, q, e⟩ | ⟨f, q⟩⟩
  · rw [q.events 0 (by decide)]; simp [n]
  · rw [e] at f ⊢
    rw [(raiseFault_events b k x).1, q.events 0 (by decide)]
    have p : policyOfKind x k = policyOfKind s k := by simp [policyOfKind, q.policies]
    simp [hk, f, p]
  · rw [q.events 0 (by decide)]
    simp [hk, f]

/-- The FAULT event after an order of reactions: pending as it was, or set by a raise that fired in it (R147). -/
theorem foldl_fault {b : GainRamp} (order : List Reaction) : ∀ t, order.Nodup →
    ((order.foldl (react b) t).link.eventPending.getLsbD 0 = true ↔ t.link.eventPending.getLsbD 0 = true ∨
      ∃ r ∈ order, ∃ k, raisedBy r = some k ∧ FiresAt t (order.foldl (react b) t) k ∧ (policyOfKind t k).policy ≠ .ignore) := by
  induction order with
  | nil => simp
  | cons r rs ih =>
    intro t nodup
    obtain ⟨fresh, rest⟩ := List.nodup_cons.mp nodup
    have policy (k : FaultKind) : policyOfKind (react b t r) k = policyOfKind t k := by
      simp [policyOfKind, (react_kept b t r).policies]
    have mine {k : FaultKind} (hk : raisedBy r = some k) :
        FiresAt t (rs.foldl (react b) (react b t r)) k ↔ FiresAt t (react b t r) k :=
      fires_iff rfl (foldl_stays b rs _ fun q hq c => fresh (raisedBy_injective hk c ▸ hq)).1 fun _ => Iff.rfl
    have other {q : Reaction} (hq : q ∈ rs) {k : FaultKind} (hk : raisedBy q = some k) :
        FiresAt (react b t r) (rs.foldl (react b) (react b t r)) k ↔ FiresAt t (rs.foldl (react b) (react b t r)) k :=
      fires_react (by rintro rfl; exact fresh hq) hk
    rw [List.foldl_cons, ih _ rest, react_fault, or_assoc]
    refine or_congr Iff.rfl ⟨?_, ?_⟩
    · rintro (⟨k, hk, f, p⟩ | ⟨q, hq, k, hk, f, p⟩)
      · exact ⟨r, List.mem_cons_self, k, hk, (mine hk).mpr f, p⟩
      · exact ⟨q, List.mem_cons_of_mem _ hq, k, hk, (other hq hk).mp f, policy k ▸ p⟩
    · rintro ⟨q, hq, k, hk, f, p⟩
      rcases List.mem_cons.mp hq with rfl | hq
      · exact .inl ⟨k, hk, (mine hk).mp f, p⟩
      · exact .inr ⟨q, hq, k, hk, (other hq hk).mpr f, (policy k).symm ▸ p⟩

/-! ### What raises and the countdown's step come to -/

/-- The raises of some kinds, in their order. -/
def View.raises (policy : FaultKind → PolicyEntry) (silence : GainRamp) (kinds : List FaultKind) (v : View) : View :=
  kinds.foldl (fun v k => v.raise (policy k) silence) v

/-- Raises, the countdown's step, and raises. -/
def View.around (policy : FaultKind → PolicyEntry) (silence unity : GainRamp) (early late : List FaultKind) (v : View) : View :=
  ((v.raises policy silence early).tick unity).raises policy silence late

/-- The greatest blank length of some kinds under a table of policies. -/
def blankOf (policy : FaultKind → PolicyEntry) (kinds : List FaultKind) : Nat :=
  (kinds.map fun k => (policy k).blank).foldr Nat.max 0

section
variable {policy : FaultKind → PolicyEntry} {silence unity : GainRamp}

/-- A kind that was raised in an order of reactions was raised by one of them. -/
theorem fires_own {b : GainRamp} {start : State} {order : List Reaction} (count : Reaction.count ∈ order) {k : FaultKind}
    (f : FiresAt start (order.foldl (react b) start) k) : ∃ r ∈ order, raisedBy r = some k := by
  rcases f with d | ⟨rfl, _⟩
  · refine Classical.byContradiction fun h => ?_
    have := (foldl_stays b order start fun r hr hk => h ⟨r, hr, hk⟩).1
    rw [d.1, d.2] at this; exact absurd this (by decide)
  · exact ⟨.count, count, rfl⟩

/-- Moves that hold one step of the countdown are raises, the step, and raises. -/
theorem moves_split {moves : List (Option FaultKind)} (nodup : moves.Nodup) (h : none ∈ moves) :
    ∃ early late : List FaultKind, (early ++ late).Nodup ∧ (∀ k, k ∈ early ++ late ↔ some k ∈ moves) ∧
      ∀ v, moves.foldl (View.move policy silence unity) v = v.around policy silence unity early late := by
  obtain ⟨before, after, rfl⟩ := List.append_of_mem h
  have plain (l : List (Option FaultKind)) (n : none ∉ l) : ∃ kinds : List FaultKind, l = kinds.map some := by
    induction l with
    | nil => exact ⟨[], rfl⟩
    | cons a l ih =>
      obtain ⟨kinds, rfl⟩ := ih fun c => n (List.mem_cons_of_mem _ c)
      cases a with
      | none => exact absurd List.mem_cons_self n
      | some k => exact ⟨k :: kinds, rfl⟩
  obtain ⟨d, e, f⟩ := List.nodup_append.mp nodup
  obtain ⟨n, e⟩ := List.nodup_cons.mp e
  obtain ⟨early, rfl⟩ := plain before fun c => f _ c _ List.mem_cons_self rfl
  obtain ⟨late, rfl⟩ := plain after n
  refine ⟨early, late, ?_, fun k => by simp, fun v => ?_⟩
  · refine List.nodup_append.mpr ⟨(List.nodup_map_iff (Option.some_injective _)).mp d,
      (List.nodup_map_iff (Option.some_injective _)).mp e, fun a ha b hb c => ?_⟩
    exact f (some a) (List.mem_map_of_mem ha) (some b) (List.mem_cons_of_mem _ (List.mem_map_of_mem hb)) (congrArg some c)
  · rw [List.foldl_append, List.foldl_cons, List.foldl_map, List.foldl_map]; rfl

theorem raises_latched (kinds : List FaultKind) : ∀ v : View, (v.raises policy silence kinds).latched = true ↔
    v.latched = true ∨ ∃ k ∈ kinds, (policy k).policy = .latch := by
  induction kinds with
  | nil => simp [View.raises]
  | cons k ks ih =>
    intro v
    refine (ih (v.raise (policy k) silence)).trans ?_
    simp [View.raise, or_assoc]

theorem raises_state (kinds : List FaultKind) : ∀ v : View, (v.state = .running ∧ (∃ k ∈ kinds, (policy k).policy = .latch) →
      (v.raises policy silence kinds).state = .held) ∧
    (¬ (v.state = .running ∧ ∃ k ∈ kinds, (policy k).policy = .latch) → (v.raises policy silence kinds).state = v.state) := by
  induction kinds with
  | nil => simp [View.raises]
  | cons k ks ih =>
    intro v
    have := ih (v.raise (policy k) silence)
    rw [show (v.raises policy silence (k :: ks)) = (v.raise (policy k) silence).raises policy silence ks from rfl]
    by_cases h : (policy k).policy = .latch ∧ v.state = .running
    · have s : (v.raise (policy k) silence).state = .held := by simp [View.raise, View.holds, h]
      refine ⟨fun _ => ?_, fun n => absurd ⟨h.2, k, List.mem_cons_self, h.1⟩ n⟩
      rw [this.2 fun c => by rw [s] at c; exact absurd c.1 (by decide), s]
    · have s : (v.raise (policy k) silence).state = v.state := by
        exact if_neg (show ¬ v.holds (policy k).policy = true by simpa [View.holds] using h)
      rw [s] at this
      refine ⟨fun ⟨r, j, hj, l⟩ => this.1 ⟨r, ?_⟩, fun n => this.2 fun ⟨r, j, hj, l⟩ => n ⟨r, j, List.mem_cons_of_mem _ hj, l⟩⟩
      rcases List.mem_cons.mp hj with rfl | hj
      · exact absurd ⟨l, r⟩ h
      · exact ⟨j, hj, l⟩

/-- The countdown after raises: the greater of itself and the greatest blank length of those raised under TIMED before a latch. -/
theorem raises_countdown (kinds : List FaultKind) : ∀ v : View, ∃ timed : List FaultKind, timed.Sublist kinds ∧
    (∀ k ∈ timed, (policy k).policy = .timed) ∧
    ((v.raises policy silence kinds).latched = false → ∀ k ∈ kinds, (policy k).policy = .timed → k ∈ timed) ∧
    (v.latched = true → timed = []) ∧
    (v.raises policy silence kinds).countdown = Nat.max v.countdown (blankOf policy timed) := by
  induction kinds with
  | nil => exact fun v => ⟨[], .refl _, by simp, by simp, fun _ => rfl, (Nat.max_zero _).symm⟩
  | cons k ks ih =>
    intro v
    obtain ⟨timed, t1, t2, t3, t4, t5⟩ := ih (v.raise (policy k) silence)
    rw [show (v.raises policy silence (k :: ks)) = (v.raise (policy k) silence).raises policy silence ks from rfl]
    by_cases h : (policy k).policy = .timed ∧ v.latched = false
    · refine ⟨k :: timed, t1.cons_cons k, ?_, fun n j hj => ?_, fun c => by simp [h.2] at c, ?_⟩
      · rintro j hj
        rcases List.mem_cons.mp hj with rfl | hj
        · exact h.1
        · exact t2 j hj
      · rcases List.mem_cons.mp hj with rfl | hj
        · exact fun _ => List.mem_cons_self
        · exact fun p => List.mem_cons_of_mem _ (t3 n j hj p)
      · rw [t5]
        have c : (v.raise (policy k) silence).countdown = Nat.max v.countdown (policy k).blank := if_pos h
        rw [c]; exact Nat.max_assoc _ _ _
    · have c : (v.raise (policy k) silence).countdown = v.countdown := if_neg h
      refine ⟨timed, t1.cons k, t2, fun n j hj p => ?_, fun l => t4 (by simp [View.raise, l]), by rw [t5, c]⟩
      rcases List.mem_cons.mp hj with rfl | hj
      · refine absurd n ?_
        have l : v.latched = true := by simpa [p] using h
        rw [Bool.not_eq_false]
        exact (raises_latched _ _).mpr (.inl (by simp [View.raise, l]))
      · exact t3 n j hj p

/-- No raise under TIMED or LATCH: nothing of the view moves. -/
theorem raises_none (kinds : List FaultKind) (h : ∀ k ∈ kinds, (policy k).policy ≠ .timed ∧ (policy k).policy ≠ .latch) :
    ∀ v : View, v.raises policy silence kinds = v := by
  induction kinds with
  | nil => exact fun _ => rfl
  | cons k ks ih =>
    intro v
    have n := h k List.mem_cons_self
    have e : v.raise (policy k) silence = v := by
      simp [View.raise, View.holds, View.leaves, n.1, n.2]
    rw [show (v.raises policy silence (k :: ks)) = (v.raise (policy k) silence).raises policy silence ks from rfl, e]
    exact ih (fun j hj => h j (List.mem_cons_of_mem _ hj)) v

/-- A ramp to silence stays one. -/
theorem raises_silent (kinds : List FaultKind) : ∀ v : View, v.ramp = silence → (v.raises policy silence kinds).ramp = silence := by
  induction kinds with
  | nil => exact fun _ h => h
  | cons k ks ih => exact fun v h => ih _ (by simp [View.raise, h])

/-- A hold leaves a ramp to silence. -/
theorem raises_held (kinds : List FaultKind) : ∀ v : View, v.state = .running → (∃ k ∈ kinds, (policy k).policy = .latch) →
    (v.raises policy silence kinds).ramp = silence := by
  induction kinds with
  | nil => rintro _ _ ⟨_, h, _⟩; exact nomatch h
  | cons k ks ih =>
    intro v r
    rintro ⟨j, hj, l⟩
    by_cases h : (policy k).policy = .latch
    · exact raises_silent ks _ (by simp [View.raise, View.holds, h, r])
    · refine ih _ (by simp [View.raise, View.holds, h, r]) ⟨j, ?_, l⟩
      rcases List.mem_cons.mp hj with rfl | hj
      · exact absurd l h
      · exact hj

theorem isOpen_iff (v : View) : v.isOpen = true ↔ v.latched = false ∧ v.countdown = 0 := by simp [View.isOpen]

/-- Raises that leave OPEN in a running show leave a ramp to silence. -/
theorem raises_leave (kinds : List FaultKind) : ∀ v : View, v.state = .running → v.isOpen = true →
    (v.raises policy silence kinds).isOpen = false → (v.raises policy silence kinds).ramp = silence := by
  induction kinds with
  | nil => intro v _ h c; exact absurd (h.symm.trans c) (by decide)
  | cons k ks ih =>
    intro v r h c
    by_cases p : (policy k).policy = .timed ∨ (policy k).policy = .latch
    · exact raises_silent ks _ (by simp [View.raise, View.leaves, h, p, r])
    · obtain ⟨p1, p2⟩ := not_or.mp p
      have e : v.raise (policy k) silence = v := by simp [View.raise, View.holds, View.leaves, p1, p2]
      rw [show (v.raises policy silence (k :: ks)) = (v.raise (policy k) silence).raises policy silence ks from rfl, e] at c ⊢
      exact ih v r h c

/-- Raises after which the output is OPEN moved nothing, where every blank length is 1 or more. -/
theorem raises_open (blanks : ∀ k, 1 ≤ (policy k).blank) (kinds : List FaultKind) (v : View)
    (h : (v.raises policy silence kinds).isOpen = true) : v.raises policy silence kinds = v := by
  obtain ⟨l, c⟩ := (isOpen_iff _).mp h
  refine raises_none kinds (fun k hk => ⟨fun p => ?_, fun p => ?_⟩) v
  · obtain ⟨timed, _, _, t3, _, t5⟩ := raises_countdown (policy := policy) (silence := silence) kinds v
    have m := t3 l k hk p
    have : (policy k).blank ≤ blankOf policy timed := by
      clear * - m
      unfold blankOf
      induction timed with
      | nil => exact nomatch m
      | cons j js ih =>
        rcases List.mem_cons.mp m with rfl | m
        · exact Nat.le_max_left _ _
        · exact Nat.le_trans (ih m) (Nat.le_max_right _ _)
    have := blanks k
    have : blankOf policy timed ≤ 0 := by rw [← c, t5]; exact Nat.le_max_right _ _
    omega
  · exact absurd (l.symm.trans ((raises_latched kinds v).mpr (.inr ⟨k, hk, p⟩))) (by decide)

theorem around_latched (early late : List FaultKind) (v : View) : (v.around policy silence unity early late).latched = true ↔
    v.latched = true ∨ ∃ k ∈ early ++ late, (policy k).policy = .latch := by
  refine (raises_latched late _).trans ?_
  rw [show ((v.raises policy silence early).tick unity).latched = (v.raises policy silence early).latched from rfl,
    raises_latched, or_assoc]
  simp [or_and_right, exists_or]

theorem around_state (early late : List FaultKind) (v : View) :
    (v.state = .running ∧ (∃ k ∈ early ++ late, (policy k).policy = .latch) →
      (v.around policy silence unity early late).state = .held) ∧
    (¬ (v.state = .running ∧ ∃ k ∈ early ++ late, (policy k).policy = .latch) →
      (v.around policy silence unity early late).state = v.state) := by
  have e := raises_state (policy := policy) (silence := silence) early v
  have l := raises_state (policy := policy) (silence := silence) late ((v.raises policy silence early).tick unity)
  rw [show ((v.raises policy silence early).tick unity).state = (v.raises policy silence early).state from rfl] at l
  by_cases h : v.state = .running ∧ ∃ k ∈ early, (policy k).policy = .latch
  · rw [e.1 h] at l
    refine ⟨fun _ => l.2 fun c => absurd c.1 (by decide), fun n => absurd ⟨h.1, ?_⟩ n⟩
    obtain ⟨k, hk, p⟩ := h.2
    exact ⟨k, List.mem_append_left _ hk, p⟩
  · rw [e.2 h] at l
    refine ⟨fun ⟨r, k, hk, p⟩ => l.1 ⟨r, k, ?_, p⟩, fun n => l.2 fun ⟨r, k, hk, p⟩ => n ⟨r, k, List.mem_append_right _ hk, p⟩⟩
    exact (List.mem_append.mp hk).resolve_left fun c => h ⟨r, k, c, p⟩

theorem around_countdown (early late : List FaultKind) (v : View) (nodup : (early ++ late).Nodup) :
    ∃ first last : List FaultKind, (first ++ last).Nodup ∧
      (∀ k ∈ first ++ last, k ∈ early ++ late ∧ (policy k).policy = .timed) ∧
      ((v.around policy silence unity early late).latched = false →
        ∀ k ∈ early ++ late, (policy k).policy = .timed → k ∈ first ++ last) ∧
      (v.latched = true → first = [] ∧ last = []) ∧
      (v.around policy silence unity early late).countdown =
        Nat.max (Nat.max v.countdown (blankOf policy first) - 1) (blankOf policy last) := by
  obtain ⟨first, a1, a2, a3, a4, a5⟩ := raises_countdown (policy := policy) (silence := silence) early v
  obtain ⟨last, b1, b2, b3, b4, b5⟩ :=
    raises_countdown (policy := policy) (silence := silence) late ((v.raises policy silence early).tick unity)
  refine ⟨first, last, nodup.sublist (a1.append b1), fun k hk => ?_, fun n k hk p => ?_, fun l => ⟨a4 l, b4 ?_⟩, ?_⟩
  · exact ⟨(a1.append b1).subset hk, (List.mem_append.mp hk).elim (a2 k) (b2 k)⟩
  · rcases List.mem_append.mp hk with hk | hk
    · refine List.mem_append_left _ (a3 (Bool.eq_false_iff.mpr fun c => ?_) k hk p)
      exact absurd (n.symm.trans ((raises_latched late _).mpr (.inl c))) (by decide)
    · exact List.mem_append_right _ (b3 n k hk p)
  · exact (raises_latched early v).mpr (.inl l)
  · rw [← a5]; exact b5

/-- The ramp when a running show leaves OPEN or is held. -/
theorem around_left (early late : List FaultKind) (v : View) (r : v.state = .running)
    (h : (∃ k ∈ early ++ late, (policy k).policy = .latch) ∨
      (v.isOpen = true ∧ (v.around policy silence unity early late).isOpen = false)) :
    (v.around policy silence unity early late).ramp = silence := by
  unfold View.around at h ⊢
  have state := (raises_state (policy := policy) (silence := silence) early v).2
  by_cases he : ∃ k ∈ early, (policy k).policy = .latch
  · have s := (raises_state (policy := policy) (silence := silence) early v).1 ⟨r, he⟩
    refine raises_silent late _ ?_
    rw [View.tick, if_neg fun c => by rw [s] at c; exact absurd c.2.2 (by decide)]
    exact raises_held early v r he
  · have s := (state fun c => he c.2).trans r
    by_cases hl : ∃ k ∈ late, (policy k).policy = .latch
    · exact raises_held late _ s hl
    · obtain ⟨o, c⟩ := h.resolve_left fun ⟨k, hk, p⟩ => (List.mem_append.mp hk).elim (fun m => he ⟨k, m, p⟩) fun m => hl ⟨k, m, p⟩
      generalize hw : v.raises policy silence early = w at c s ⊢
      by_cases ho : (w.tick unity).isOpen = true
      · exact raises_leave late _ s ho c
      · have wn : w.isOpen = false := Bool.eq_false_iff.mpr fun c => ho <| (isOpen_iff _).mpr
          ⟨((isOpen_iff _).mp c).1, by show w.countdown - 1 = 0; rw [((isOpen_iff _).mp c).2]⟩
        refine raises_silent late _ ?_
        rw [View.tick, if_neg fun c => ho ((isOpen_iff _).mpr ⟨c.1, by show w.countdown - 1 = 0; rw [c.2.1]⟩)]
        exact hw ▸ raises_leave early v r o (hw ▸ wn)

/-- The ramp when the output of a running show returns to OPEN. -/
theorem around_returned (blanks : ∀ k, 1 ≤ (policy k).blank) (early late : List FaultKind) (v : View) (r : v.state = .running)
    (h : v.isOpen = false) (c : (v.around policy silence unity early late).isOpen = true) :
    (v.around policy silence unity early late).ramp = unity := by
  have latched := ((isOpen_iff _).mp c).1
  unfold View.around at c ⊢
  have last := raises_open blanks late _ c
  rw [last] at c ⊢
  have never : ¬ ∃ k ∈ early ++ late, (policy k).policy = .latch := fun l =>
    absurd (latched.symm.trans ((around_latched early late v).mpr (.inr l))) (by decide)
  have s := ((raises_state (policy := policy) (silence := silence) early v).2 fun ⟨_, k, hk, p⟩ =>
    never ⟨k, List.mem_append_left _ hk, p⟩).trans r
  obtain ⟨l, n⟩ := (isOpen_iff _).mp c
  have wl : (v.raises policy silence early).latched = false := l
  have vl : v.latched = false := Bool.eq_false_iff.mpr fun c =>
    absurd (wl.symm.trans ((raises_latched early v).mpr (.inl c))) (by decide)
  obtain ⟨timed, _, _, _, _, t5⟩ := raises_countdown (policy := policy) (silence := silence) early v
  have up : v.countdown ≤ (v.raises policy silence early).countdown := t5 ▸ Nat.le_max_left _ _
  have down : (v.raises policy silence early).countdown - 1 = 0 := n
  have v0 : v.countdown ≠ 0 := fun c => by rw [(isOpen_iff _).mpr ⟨vl, c⟩] at h; exact absurd h (by decide)
  exact if_pos ⟨wl, by omega, s⟩

/-- The view when nothing blanks: the countdown's step alone. -/
theorem around_none (early late : List FaultKind) (v : View)
    (h : ∀ k ∈ early ++ late, (policy k).policy ≠ .timed ∧ (policy k).policy ≠ .latch) :
    v.around policy silence unity early late = v.tick unity := by
  unfold View.around
  rw [raises_none early (fun k hk => h k (List.mem_append_left _ hk)),
    raises_none late fun k hk => h k (List.mem_append_right _ hk)]

end

/-! ### The reactions of an advance on the view -/

/-- An order that holds the countdown's and the Count Unit's reaction moves the view by the raises that fired and the countdown's
step among them. -/
theorem foldl_around {b : GainRamp} {start : State} {order : List Reaction} (nodup : order.Nodup)
    (countdown : Reaction.countdown ∈ order) (count : Reaction.count ∈ order) (g : View → View)
    (raises : ∀ v e, g (v.raise e (rampFor b .silence start)) = (g v).raise e (rampFor b .silence start))
    (ticks : ∀ t, Kept start t →
      g ((viewOf t).tick (rampFor b .unity start)) = (g (viewOf t)).tick (rampFor b .unity start))
    (fades : ∀ t, Kept start t → g (viewOf (soundBegins b t)) = g (viewOf t)) :
    ∃ early late : List FaultKind, (early ++ late).Nodup ∧
      (∀ k, k ∈ early ++ late ↔ FiresAt start (order.foldl (react b) start) k) ∧
      g (viewOf (order.foldl (react b) start)) =
        (g (viewOf start)).around (policyOfKind start) (rampFor b .silence start) (rampFor b .unity start) early late := by
  obtain ⟨moves, m1, m2, m3, m4⟩ := foldl_moves (policy := policyOfKind start) g (fun v k => raises v _) ticks fades
    (fun _ => rfl) rfl rfl order start (Kept.refl _) nodup
  obtain ⟨early, late, n, mem, e⟩ := moves_split (policy := policyOfKind start) (silence := rampFor b .silence start)
    (unity := rampFor b .unity start) m1 (m2.mpr countdown)
  refine ⟨early, late, n, fun k => (mem k).trans ((m3 k).trans ⟨fun ⟨_, _, _, f⟩ => f, fun f => ?_⟩), by rw [m4, e]⟩
  obtain ⟨r, hr, hk⟩ := fires_own count f
  exact ⟨r, hr, hk, f⟩

/-- The final advance's ramp, in every order (R94). -/
theorem foldl_silent {b : GainRamp} {start : State} {order : List Reaction} (sound : Reaction.sound ∈ order)
    (final : start.ctl.position = showTotal start) (still : start.ctl.state ≠ .running) :
    (order.foldl (react b) start).sound.ramp = rampFor b .silence start := by
  have state {t : State} (ht : Kept start t) : (viewOf t).state ≠ .running := fun c => by
    rcases ht.show_state with e | ⟨e, _⟩
    · exact still (e.symm.trans c)
    · exact still e
  have begins {t : State} (ht : Kept start t) : (viewOf (soundBegins b t)).ramp = rampFor b .silence start := by
    have total : showTotal t = showTotal start := by unfold showTotal; rw [ht.record]
    rw [viewOf_soundBegins, if_pos (by rw [ht.position, total]; exact final)]; exact rampFor_kept ht b _
  have step {t : State} (ht : Kept start t) (r : Reaction) (n : r ≠ .countdown)
      (f : (found b r t).ramp = rampFor b .silence start) (same : raisedBy r = none → (viewOf t).ramp = rampFor b .silence start) :
      (viewOf (react b t r)).ramp = rampFor b .silence start := by
    rcases react_steps b t r n with ⟨e, v⟩ | ⟨k, _, ⟨_, v⟩ | ⟨_, v⟩⟩ <;> rw [v]
    · exact same e
    · show (if _ then rampFor b .silence t else _) = _
      rw [rampFor_kept ht]; split
      · rfl
      · exact f
    · exact f
  refine foldl_reaches (b := b) (P := fun t => (viewOf t).ramp = rampFor b .silence start) .sound (fun t r ht p => ?_)
    (fun t ht => step ht .sound (by decide) (begins ht) nofun) order start (Kept.refl _) sound
  by_cases e : r = .countdown
  · subst e
    rw [show react b t .countdown = countdownAdvance b t from rfl, viewOf_countdownAdvance, View.tick,
      if_neg fun c => state ht c.2.2]
    exact p
  · refine step ht r e ?_ fun _ => p
    unfold found; split
    · exact begins ht
    · exact p

/-! ### The reactions of an advance on the count -/

/-- Without a commit the reactions leave the committed flag, the Count Unit's events, and all of the Count Unit but the blanked
count, in every order (R135). -/
theorem foldl_uncounted {b : GainRamp} {start : State} (order : List Reaction) (h : ¬ CommitMade start) :
    let t := order.foldl (react b) start
    t.ctl.committed = start.ctl.committed ∧ t.count = { start.count with blanked := t.count.blanked } ∧
      CountEventsSame start.link t.link := by
  refine foldl_keeps (b := b) (start := start) (P := fun t => t.ctl.committed = start.ctl.committed ∧
    t.count = { start.count with blanked := t.count.blanked } ∧ CountEventsSame start.link t.link)
    (fun t r ht ⟨p1, p2, p3⟩ => ?_) order start (Kept.refl _) ⟨rfl, rfl, fun _ _ => rfl⟩
  by_cases e : r = .count
  · subst e
    have n : ¬ CommitMade t := by
      unfold CommitMade isFull commitDue at h ⊢
      rwa [ht.mark, ht.position, ht.commitUnit, ht.record, p1, p2]
    have cases : react b t .count = t ∨ react b t .count = countBlanked t := countAdvance_uncommitted b n
    rcases cases with e | e <;> rw [e]
    · exact ⟨p1, p2, p3⟩
    · unfold countBlanked; split
      · exact ⟨p1, p2, p3⟩
      · exact ⟨p1, congrArg (fun c : CountUnit => { c with blanked := satInc Config.max16 t.count.blanked }) p2, p3⟩
  · obtain ⟨q1, q2, q3⟩ := react_uncommitted b t r e
    exact ⟨q1.trans p1, q2 ▸ p2, fun e he => (q3 e he).trans (p3 e he)⟩

/-- With a commit the flag is set, in every order (R135). -/
theorem foldl_committed {b : GainRamp} {start : State} {order : List Reaction} (count : Reaction.count ∈ order)
    (h : CommitMade start) : (order.foldl (react b) start).ctl.committed = true := by
  have store (slot : Fin 8) (x : State) : (storeCommit b slot x).ctl.committed = x.ctl.committed := by
    unfold storeCommit; split
    · rfl
    · rfl
    · exact raiseFault_committed b _ _
  have brings {t : State} (ht : CommitMade t) : (countAdvance b t).ctl.committed = true := by
    obtain ⟨x, slot, e, _, _, c⟩ := countAdvance_commits b ht
    rw [e, store, c]
  refine foldl_reaches_from (b := b) (start := start) (P := fun t => t.ctl.committed = true) .count (fun _ t => CommitMade t)
    (fun r _ t _ hr q => (react_commitFails b t hr).1.mpr q) (fun t r _ p => ?_) (fun _ t _ q => brings q) order start
    (Kept.refl _) count h
  by_cases e : r = .count
  · subst e
    have n : ¬ CommitMade t := fun c => by have := c.2.1; simp [commitDue, p] at this
    show (countAdvance b t).ctl.committed = true
    rcases countAdvance_uncommitted b n with e | e <;> rw [e]
    · exact p
    · rw [(countBlanked_same t).2.1]; exact p
  · exact (react_uncommitted b t r e).1.trans p

/-- The entry of STORE_FAIL after the reactions, in every order (R140, R147). -/
theorem foldl_storeFail {b : GainRamp} {start : State} {order : List Reaction} (once : order.count .count = 1) :
    (CommitFails start → faultOf (order.foldl (react b) start) .storeFail =
      raisedEntry (policyOfKind start .storeFail).policy .storeFail (faultOf start .storeFail)) ∧
    (¬ CommitFails start → faultOf (order.foldl (react b) start) .storeFail = faultOf start .storeFail) := by
  have other (t : State) (r : Reaction) (_ : Kept start t) (h : r ≠ .count) :
      faultOf (react b t r) .storeFail = faultOf t .storeFail :=
    (react_stays (fun c => h (raisedBy_injective c rfl)) b t).2
  have policy {t : State} (ht : Kept start t) : policyOfKind t .storeFail = policyOfKind start .storeFail := by
    simp [policyOfKind, ht.policies]
  refine ⟨fun h => ?_, fun h => ?_⟩
  · exact (foldl_once_from (start := start) (faultOf · .storeFail)
      (raisedEntry (policyOfKind start .storeFail).policy .storeFail) .count (fun _ t => CommitFails t)
      (fun r _ t _ hr q => (react_commitFails b t hr).2.mpr q) other
      (fun _ t ht q => policy ht ▸ (countAdvance_storeFail b t).1 q) order start (Kept.refl _)).2 once h
  · exact (foldl_once_from (start := start) (faultOf · .storeFail) id .count (fun _ t => ¬ CommitFails t)
      (fun r _ t _ hr q => (react_commitFails b t hr).2.not.mpr q) other
      (fun _ t _ q => (countAdvance_storeFail b t).2 q) order start (Kept.refl _)).2 once h

end Sys2Proof.Machine
end

