-- ==== Sys2Proof/Laws/Advanced.lean ====
section
/-! SUPPORT. Laws/Advanced.lean: an advance does what `Advanced` says, in every order of its reactions (R31). -/

namespace Sys2Proof.Machine

/-! ### The advance -/

/-- The Show Controller's own step as one state (R32, R50). -/
theorem takeAdvance_eq (s : State) : takeAdvance s =
    let final : Bool := s.ctl.position + 1 = showTotal s
    { s with
      ctl := { s.ctl with position := s.ctl.position + 1, state := if final then .ended else s.ctl.state }
      clock := if final then { s.clock with substate := .idle, anchorDeadline := none } else s.clock
      link := { s.link with eventPending := s.link.eventPending ||| if final then 2#7 else 0#7 } } := by
  unfold takeAdvance; dsimp only
  by_cases h : s.ctl.position + 1 = showTotal s
  · simp [h, setShowState, clockIdle, setEvent, eventBit, State.setCtl, State.setClock, State.setLink]
  · simp [h, State.setCtl]

/-- What the Show Controller's own step leaves and does. -/
structure Taken (s u : State) : Prop where
  rest : u = { s with ctl := u.ctl, clock := u.clock, link := u.link }
  ctl : u.ctl = { s.ctl with position := s.ctl.position + 1, state := u.ctl.state }
  clock : ClockKept s.clock u.clock
  syncLoss : u.clock.syncLoss = s.clock.syncLoss
  link : EventsAdded s.link u.link
  countEvents : CountEventsSame s.link u.link
  showEvent : u.link.eventPending.getLsbD 1 = (s.link.eventPending.getLsbD 1 || s.ctl.position + 1 = showTotal s)
  otherEvents : ∀ e, e ≠ 1 → u.link.eventPending.getLsbD e = s.link.eventPending.getLsbD e
  ended : s.ctl.position + 1 = showTotal s → u.ctl.state = .ended ∧ u.clock.substate = .idle ∧ u.clock.anchorDeadline = none
  going : s.ctl.position + 1 ≠ showTotal s → u.ctl.state = s.ctl.state ∧ u.clock = s.clock

theorem takeAdvance_does (s : State) : Taken s (takeAdvance s) := by
  rw [takeAdvance_eq]
  have bit (e : Nat) (he : e ≠ 1) : (2#7).getLsbD e = false := by
    by_cases l : e < 7
    · interval_cases e <;> first | rfl | exact absurd rfl he
    · exact BitVec.getLsbD_of_ge _ _ (by omega)
  by_cases h : s.ctl.position + 1 = showTotal s
  · simp only [h, decide_true, if_true]
    exact { rest := rfl, ctl := by rw [h], clock := .inr rfl, syncLoss := rfl, link := ⟨2#7, rfl⟩,
            countEvents := .of_or (x := 2#7) rfl (by decide), showEvent := by simp [h],
            otherEvents := fun e he => by rw [BitVec.getLsbD_or, bit e he, Bool.or_false],
            ended := fun _ => ⟨rfl, rfl, rfl⟩, going := fun n => absurd h n }
  · simp only [h, decide_false, Bool.false_eq_true, if_false]
    exact { rest := by simp, ctl := rfl, clock := .inl rfl, syncLoss := rfl, link := ⟨0#7, rfl⟩,
            countEvents := .of_or (x := 0#7) rfl (by decide), showEvent := by simp [h], otherEvents := fun e _ => by simp,
            ended := fun e => absurd e h, going := fun _ => ⟨rfl, rfl⟩ }

/-- The reactions an advance may have. -/
def Reactions (reactions : List Reaction) : Prop := reactions = blockReactions ∨ reactions = .syncLoss :: blockReactions

theorem Reactions.count {reactions : List Reaction} (h : Reactions reactions) {r : Reaction} (hr : r ≠ .syncLoss) (n : Nat) :
    (shuffle reactions n).count r = 1 := by
  rw [(shuffle_perm reactions n).count_eq]
  rcases h with h | h <;> subst h <;> cases r <;> first | rfl | exact absurd rfl hr

theorem Reactions.nodup {reactions : List Reaction} (h : Reactions reactions) (n : Nat) : (shuffle reactions n).Nodup := by
  rw [(shuffle_perm reactions n).nodup_iff]
  rcases h with h | h <;> subst h <;> decide

/-- A condition kind whose own reaction, when it compares at all, judges its detector: its detector, its entry and its raise after the
reactions, in every order that holds its own once. -/
theorem foldl_condition {k : FaultKind} {own : Reaction} {b : GainRamp} {start : State} {compared behind : Bool}
    {late limit : Nat} (hk : isConditionKind k = true) (hown : raisedBy own = some k) (Q : State → Prop)
    (keeps : ∀ t r, Kept start t → r ≠ own → Q t → Q (react b t r))
    (does : ∀ t, Kept start t → Q t → ∃ x y, Stays k t x ∧ Stays k t y ∧ x.sup.policies = t.sup.policies ∧
      react b t own = if compared then judgeStarved b k behind late limit x else y)
    {order : List Reaction} (once : order.count own = 1) (hq : Q start) :
    detectorOf (order.foldl (react b) start) k = starvedAfter compared behind late limit (detectorOf start k) ∧
    faultOf (order.foldl (react b) start) k = conditionEntry (policyOfKind start k).policy k (detectorOf start k)
      (starvedAfter compared behind late limit (detectorOf start k)) (faultOf start k) ∧
    (detectorOf start k = false → starvedAfter compared behind late limit (detectorOf start k) = true →
      ((policyOfKind start k).policy ≠ .ignore →
        (order.foldl (react b) start).link.eventPending.getLsbD 0 = true) ∧
      ((policyOfKind start k).policy = .latch → anyLatched (order.foldl (react b) start) = true ∧
        (order.foldl (react b) start).ctl.state ≠ .running)) := by
  have other (t : State) (r : Reaction) (h : r ≠ own) : Stays k t (react b t r) :=
    react_stays (fun c => h (raisedBy_injective c hown)) b t
  have policy {t : State} (ht : Kept start t) {x : State} (hx : x.sup.policies = t.sup.policies) :
      policyOfKind x k = policyOfKind start k := by simp [policyOfKind, hx, ht.policies]
  have value := (foldl_once_from (b := b) (start := start) (fun t => (detectorOf t k, faultOf t k))
    (fun v => (starvedAfter compared behind late limit v.1, conditionEntry (policyOfKind start k).policy k v.1
      (starvedAfter compared behind late limit v.1) v.2)) own (fun _ t => Q t)
    (fun r _ t ht hr q => keeps t r ht hr q) (fun t r _ hr => by rw [(other t r hr).1, (other t r hr).2])
    (fun _ t ht q => by
      obtain ⟨x, y, hx, hy, hp, e⟩ := does t ht q
      rw [e]
      cases compared
      · rw [if_neg (by decide), hy.1, hy.2]; simp [starvedAfter, conditionEntry_same]
      · obtain ⟨o1, o2⟩ := judgeStarved_own hk b behind late limit x
        rw [if_pos rfl, o1, o2, hx.1, hx.2, policy ht hp]) order start (Kept.refl _)).2 once hq
  refine ⟨congrArg (·.1) value, congrArg (·.2) value, fun was now => ?_⟩
  refine foldl_reaches_from (b := b) (start := start)
    (P := fun t => ((policyOfKind start k).policy ≠ .ignore → t.link.eventPending.getLsbD 0 = true) ∧
      ((policyOfKind start k).policy = .latch → anyLatched t = true ∧ t.ctl.state ≠ .running))
    own (fun _ t => Q t ∧ detectorOf t k = false) (fun r _ t ht hr q => ⟨keeps t r ht hr q.1, (other t r hr).1.trans q.2⟩)
    (fun t r _ h => ⟨fun n => (react_kept b t r).events 0 (h.1 n), fun n => ⟨react_keepsLatch b r (h.2 n).1, fun c => ?_⟩⟩)
    (fun _ t ht q => ?_) order start (Kept.refl _) (List.count_pos_iff.mp (by omega)) ⟨hq, was⟩
  · rcases (react_kept b t r).show_state with e | ⟨e, _⟩
    · exact (h.2 n).2 (e.symm.trans c)
    · exact (h.2 n).2 e
  · obtain ⟨x, y, hx, hy, hp, e⟩ := does t ht q.1
    have c : compared = true := by
      revert now; cases compared
      · rw [was]; exact fun n => n
      · exact fun _ => rfl
    have xd : detectorOf x k = false := hx.1.trans q.2
    have xn : detectorOf (judgeStarved b k behind late limit x) k = true := by
      rw [(judgeStarved_own hk b behind late limit x).1, xd]
      rw [was, c] at now; exact now
    rw [e, if_pos c, judgeStarved_raises xd b xn, ← policy ht hp]
    exact raiseCondition_raises xd b

/-- The blanked count after the reactions (R134): one more when the output is blanked whichever block takes the advance first, as it was
when it stays OPEN throughout, and one of the two in any case. -/
theorem foldl_blanked (b : GainRamp) {start : State} {order : List Reaction} (once : order.count .count = 1)
    (nodup : order.Nodup) :
    let t := order.foldl (react b) start
    (isFull start = false → t.count.blanked = start.count.blanked) ∧
    (isFull start = true → anyLatched start = true ∨ 2 ≤ start.sup.countdown →
      t.count.blanked = Nat.min (start.count.blanked + 1) 65535) ∧
    (outputCondition start = .openOutput → outputCondition t = .openOutput →
      (∀ k, (policyOfKind start k).policy = .timed → detectorOf t k = true → detectorOf start k = true) →
      t.count.blanked = start.count.blanked) ∧
    (t.count.blanked = start.count.blanked ∨ t.count.blanked = Nat.min (start.count.blanked + 1) 65535) := by
  have full {t : State} (ht : Kept start t) : isFull t = isFull start := by simp [isFull, ht.mark]
  have other (t : State) (r : Reaction) (_ : Kept start t) (h : r ≠ .count) :
      (react b t r).count.blanked = t.count.blanked := react_blanked b t r h
  have policy {t : State} (ht : Kept start t) (k : FaultKind) : policyOfKind t k = policyOfKind start k := by
    simp [policyOfKind, ht.policies]
  refine ⟨fun h => ?_, fun h hb => ?_, fun h0 h1 timed => ?_, ?_⟩
  · refine foldl_once (start := start) (·.count.blanked) id .count other (fun t ht => ?_) order once start (Kept.refl _)
    exact (countAdvance_blanked b t).trans (if_neg fun c => by simp [full ht, h] at c)
  · refine (foldl_once_from (start := start) (·.count.blanked) (fun n => Nat.min (n + 1) 65535) .count
      (fun l t => anyLatched t = true ∨ l.count .countdown < t.sup.countdown) (fun r rs t _ hr q => ?_) other
      (fun rs t ht q => ?_) order start (Kept.refl _)).2 once ?_
    · rcases q with q | q
      · exact .inl (react_keepsLatch b r q)
      · refine .inr ?_
        by_cases e : r = .countdown
        · subst e
          rw [List.count_cons_self] at q
          rw [show react b t .countdown = countdownAdvance b t from rfl, (countdownAdvance_does b t).2]
          show _ < t.sup.countdown - 1
          omega
        · rw [List.count_cons_of_ne e] at q
          rcases react_countdown b t r e with c | ⟨_, _, c | ⟨_, c, _⟩⟩ <;> omega
    · refine (countAdvance_blanked b t).trans (if_pos ⟨(full ht).trans h, fun c => ?_⟩)
      obtain ⟨c1, c2⟩ := (open_iff t).mp c
      rcases q with q | q
      · simp [c1] at q
      · omega
    · rcases hb with hb | hb
      · exact .inl hb
      · exact .inr (Nat.lt_of_le_of_lt (List.nodup_iff_count_le_one.mp nodup _) hb)
  · have endsOpen := ((open_iff _).mp h1).1
    refine (foldl_once_from (start := start) (·.count.blanked) id .count
      (fun l t => anyLatched (l.foldl (react b) t) = false ∧ t.sup.countdown = 0 ∧ l.Nodup ∧
        (∀ k, (policyOfKind start k).policy = .timed → detectorOf (l.foldl (react b) t) k = true →
          detectorOf start k = true) ∧
        ∀ r ∈ l, ∀ k, raisedBy r = some k → detectorOf t k = detectorOf start k)
      (fun r rs t ht hr ⟨q1, q2, q3, q4, q5⟩ => ?_) other (fun rs t ht ⟨q1, q2, _⟩ => ?_) order start (Kept.refl _)).2 once
      ⟨endsOpen, ((open_iff _).mp h0).2, nodup, timed, fun _ _ _ _ => rfl⟩
    · obtain ⟨fresh, rest⟩ := List.nodup_cons.mp q3
      refine ⟨q1, ?_, rest, q4, fun q m k hk => ?_⟩
      · by_cases e : r = .countdown
        · subst e
          rw [show react b t .countdown = countdownAdvance b t from rfl, (countdownAdvance_does b t).2]
          show t.sup.countdown - 1 = 0
          omega
        · rcases react_countdown b t r e with c | ⟨k, hk, c | ⟨p, _, c⟩⟩
          · omega
          · omega
          · have ns : k ≠ .storeFail := fun c => hr (raisedBy_injective (c ▸ hk) rfl)
            obtain ⟨before, after⟩ := c ns
            have last : detectorOf ((r :: rs).foldl (react b) t) k = true := by
              rw [List.foldl_cons, (foldl_stays b rs _ fun q m c => fresh (raisedBy_injective hk c ▸ m)).1]; exact after
            have := q4 k (policy ht k ▸ p) last
            rw [q5 r List.mem_cons_self k hk, this] at before
            exact absurd before (by decide)
      · have ne : raisedBy r ≠ some k := fun c => fresh (raisedBy_injective c hk ▸ m)
        exact (react_stays ne b t).1.trans (q5 q (List.mem_cons_of_mem _ m) k hk)
    · refine (countAdvance_blanked b t).trans (if_neg fun c => c.2 ((open_iff t).mpr ⟨?_, q2⟩))
      cases hl : anyLatched t
      · rfl
      · rw [foldl_keepsLatch b (.count :: rs) hl] at q1; exact absurd q1 (by decide)
  · obtain ⟨before, after, rfl, nb, na⟩ := split_once once
    have still (l : List Reaction) : ∀ t, .count ∉ l → (l.foldl (react b) t).count.blanked = t.count.blanked := by
      induction l with
      | nil => exact fun _ _ => rfl
      | cons r rs ih =>
        intro t n
        exact (ih _ fun m => n (List.mem_cons_of_mem _ m)).trans (react_blanked b t r fun e => n (e ▸ List.mem_cons_self))
    rw [List.foldl_append, List.foldl_cons, still after _ na, show ∀ t, react b t .count = countAdvance b t from fun _ => rfl,
      countAdvance_blanked, still before _ nb]
    split
    · exact .inr rfl
    · exact .inl rfl

/-- An advance, as its parts. -/
theorem advance_kept (reactions : List Reaction) (s : State) :
    Kept (takeAdvance (s.setFree (s.free + 1))) (advance reactions s) := foldl_kept _ _ _

/-- An advance does what `Advanced` says, in every order of its reactions. -/
theorem advance_does {reactions : List Reaction} (h : Reactions reactions) (s : State) : Advanced s (advance reactions s) := by
  have k := advance_kept reactions s
  have u := takeAdvance_does (s.setFree (s.free + 1))
  have cnt {r : Reaction} (hr : r ≠ .syncLoss) := h.count hr (Config.advanceOrder s.free)
  have mem {r : Reaction} (hr : r ≠ .syncLoss) : r ∈ shuffle reactions (Config.advanceOrder s.free) :=
    List.count_pos_iff.mp (by rw [cnt hr]; exact Nat.one_pos)
  have nodup := h.nodup (Config.advanceOrder s.free)
  have out : advance reactions s =
      (shuffle reactions (Config.advanceOrder s.free)).foldl (react s.sound.ramp) (takeAdvance (s.setFree (s.free + 1))) := rfl
  generalize shuffle reactions (Config.advanceOrder s.free) = order at cnt mem nodup out
  generalize hstart : takeAdvance (s.setFree (s.free + 1)) = start at k u out
  have rest {α : Type} (f : State → α) (hf : ∀ x : State, ∀ c d e, f { x with ctl := c, clock := d, link := e } = f x) :
      f start = f (s.setFree (s.free + 1)) := by rw [u.rest]; exact hf _ _ _ _
  have ctl {α : Type} (f : Controller → α) (hf : ∀ x : Controller, ∀ p c, f { x with position := p, state := c } = f x) :
      f start.ctl = f s.ctl := by rw [u.ctl]; exact hf _ _ _
  have position : start.ctl.position = s.ctl.position + 1 := by rw [u.ctl]; rfl
  have full {t : State} (ht : Kept start t) : isFull t = isFull s := by
    unfold isFull; rw [ht.mark, ctl (·.mark) fun _ _ _ => rfl]
  have record {t : State} (ht : Kept start t) : t.ctl.record = s.ctl.record := ht.record.trans (ctl (·.record) fun _ _ _ => rfl)
  have total {t : State} (ht : Kept start t) : showTotal t = showTotal s := by unfold showTotal; rw [record ht]
  have spu {t : State} (ht : Kept start t) : showSpu t = showSpu s := by unfold showSpu; rw [record ht]
  have at_ {t : State} (ht : Kept start t) : t.ctl.position = s.ctl.position + 1 := ht.position.trans position
  have sup : start.sup = s.sup := rest (·.sup) fun _ _ _ _ => rfl
  have unpack : start.unpack = s.unpack := rest (·.unpack) fun _ _ _ _ => rfl
  have sound : start.sound = s.sound := rest (·.sound) fun _ _ _ _ => rfl
  have count : start.count = s.count := rest (·.count) fun _ _ _ _ => rfl
  have cues : start.cues = s.cues := rest (·.cues) fun _ _ _ _ => rfl
  have keys : start.keys = s.keys := rest (·.keys) fun _ _ _ _ => rfl
  have policy (m : FaultKind) : policyOfKind start m = policyOfKind s m := by simp [policyOfKind, sup]
  have fault (m : FaultKind) : faultOf start m = faultOf s m := by simp [faultOf, sup]
  have detector (m : FaultKind) : detectorOf start m = detectorOf s m := by
    cases m
    case syncLoss => exact u.syncLoss
    case keyLapsed => exact ctl (·.keyLapsed) fun _ _ _ => rfl
    all_goals simp [detectorOf, unpack, sound, sup]
  have latched : anyLatched start = anyLatched s := by simp [anyLatched, faultOf, sup]
  have output : outputCondition start = outputCondition s := by simp [outputCondition, latched, sup]
  have bound {t : State} (ht : Kept start t) : activationBound t = activationBound start := by
    unfold activationBound showTotal; rw [ht.free, ht.record, ht.position]
  have lanes : (order.foldl (react s.sound.ramp) start).cues =
      lanesAfter s.cues (s.ctl.position + 1) (activationBound start) := by
    rw [← cues]
    exact foldl_once (start := start) (·.cues) (fun c => lanesAfter c (s.ctl.position + 1) (activationBound start)) .cues
      (fun t r _ hr => react_cues _ t r hr) (fun t ht => at_ ht ▸ bound ht ▸ (activateLanes_does _ _ t).1) order
      (cnt (by decide)) start (Kept.refl _)
  have low {e : Nat} (he : e = 4 ∨ e = 5) (lane : CueIntake → Lane)
      (sets : ∀ t, (cueAdvance t).link.eventPending.getLsbD e =
        (t.link.eventPending.getLsbD e || laneLow t.ctl.position (activationBound t) (lane t.cues))) :
      (order.foldl (react s.sound.ramp) start).link.eventPending.getLsbD e = (s.link.eventPending.getLsbD e ||
        laneLow (s.ctl.position + 1) (activationBound start) (lane s.cues)) := by
    rw [show s.link.eventPending.getLsbD e = start.link.eventPending.getLsbD e from (u.otherEvents e (by omega)).symm]
    exact (foldl_once_from (start := start) (·.link.eventPending.getLsbD e)
      (· || laneLow (s.ctl.position + 1) (activationBound start) (lane s.cues)) .cues (fun _ t => t.cues = s.cues)
      (fun r _ t _ hr q => (react_cues _ t r hr).trans q) (fun t r _ hr => react_laneEvents _ t r hr he)
      (fun _ t ht q => (sets t).trans (by rw [at_ ht, bound ht, q])) order start (Kept.refl _)).2 (cnt (by decide)) cues
  have lowA := low (.inl rfl) (·.laneA) fun t => (laneEvents t).2.1
  have lowB := low (.inr rfl) (·.laneB) fun t => (laneEvents t).2.2
  have goes := foldl_goes s.sound.ramp order start
  have faultEvent := foldl_fault (b := s.sound.ramp) order start nodup
  have picture := foldl_condition (k := .pictureStarved) (own := .picture) (b := s.sound.ramp) (start := start) rfl rfl
    (fun t => t.unpack.late = s.unpack.late) (fun t r _ hr q => (react_pictureLate _ t r hr).trans q)
    (compared := isFull s && decide (s.ctl.position + 1 < showTotal s))
    (behind := frontierBehind s.unpack.frontier (s.ctl.position + 1))
    (late := lateAfter (isFull s && decide (s.ctl.position + 1 < showTotal s))
      (frontierBehind s.unpack.frontier (s.ctl.position + 1)) s.unpack.late) (limit := s.unpack.limit)
    (fun t ht q => by
      have e := (pictureAdvance_does s.sound.ramp t).2.2
      rw [full ht, at_ ht, total ht, ht.pictureFrontier, ht.pictureLimit, q, unpack] at e
      refine ⟨_, t, ?_, Stays.refl _ t, ?_, e⟩
      · exact ⟨rfl, rfl⟩
      · rfl) (cnt (by decide)) (by rw [unpack])
  have soundly := foldl_condition (k := .soundStarved) (own := .sound) (b := s.sound.ramp) (start := start) rfl rfl
    (fun t => t.sound.late = s.sound.late) (fun t r _ hr q => (react_soundLate _ t r hr).trans q)
    (compared := isFull s && decide (s.ctl.position + 1 < showTotal s))
    (behind := frontierBehind s.sound.frontier ((s.ctl.position + 1) * showSpu s))
    (late := lateAfter (isFull s && decide (s.ctl.position + 1 < showTotal s))
      (frontierBehind s.sound.frontier ((s.ctl.position + 1) * showSpu s)) s.sound.late) (limit := s.sound.limit)
    (fun t ht q => by
      have e := (soundAdvance_does s.sound.ramp t).2.2
      have st := soundBegins_stays .soundStarved s.sound.ramp t
      rw [full ht, at_ ht, total ht, spu ht, ht.soundFrontier, ht.soundLimit, q, sound] at e
      refine ⟨_, _, ?_, st, ?_, e⟩
      · exact st.trans ⟨rfl, rfl⟩
      · rw [setSound_sup, soundBegins_eq]) (cnt (by decide)) (by rw [sound])
  have reel := foldl_condition (k := .keyLapsed) (own := .reel) (b := s.sound.ramp) (start := start) rfl rfl
    (fun _ => True) (fun _ _ _ _ _ => trivial) (compared := lapsesAt s (s.ctl.position + 1)) (behind := true) (late := 0)
    (limit := 0) (fun t ht _ => by
      have e := (reelAdvance_does s.sound.ramp t).2.2
      have l : lapsesAt t t.ctl.position = lapsesAt s (s.ctl.position + 1) := by
        unfold lapsesAt; rw [full ht, at_ ht, record ht, ht.keys, keys]
      rw [l] at e
      exact ⟨t, t, Stays.refl _ t, Stays.refl _ t, rfl, e⟩) (cnt (by decide)) trivial
  have blanked := foldl_blanked s.sound.ramp (start := start) (cnt (by decide)) nodup
  rw [full (Kept.refl _), latched, output, count, sup] at blanked
  have late (f : Nat → Nat) (g : State → Nat) (own : Reaction)
      (other : ∀ t r, Kept start t → r ≠ own → g (react s.sound.ramp t r) = g t)
      (does : ∀ t, Kept start t → g (react s.sound.ramp t own) = f (g t)) (hr : own ≠ .syncLoss) :
      g (order.foldl (react s.sound.ramp) start) = f (g start) :=
    foldl_once g f own other does order (cnt hr) start (Kept.refl _)
  have pictureLate := late (lateAfter (isFull s && decide (s.ctl.position + 1 < showTotal s))
      (frontierBehind s.unpack.frontier (s.ctl.position + 1))) (·.unpack.late) .picture
    (fun t r _ hr => react_pictureLate _ t r hr) (fun t ht => by
      have e := (pictureAdvance_does s.sound.ramp t).1.pictureLate
      rw [full ht, at_ ht, total ht, ht.pictureFrontier, unpack] at e
      exact e) (by decide)
  have soundLate := late (lateAfter (isFull s && decide (s.ctl.position + 1 < showTotal s))
      (frontierBehind s.sound.frontier ((s.ctl.position + 1) * showSpu s))) (·.sound.late) .sound
    (fun t r _ hr => react_soundLate _ t r hr) (fun t ht => by
      have e := (soundAdvance_does s.sound.ramp t).1.soundLate
      rw [full ht, at_ ht, total ht, spu ht, ht.soundFrontier, sound] at e
      exact e) (by decide)
  have mask := foldl_reaches (start := start) (P := fun t => t.sound.activeMask = s.sound.pendingMask) .sound
    (fun t r ht p => by
      rcases (react_kept s.sound.ramp t r).mask with m | m
      · exact m.trans p
      · exact m.trans (by rw [ht.pendingMask, sound]))
    (fun t ht => by
      have m : (soundBegins s.sound.ramp t).sound.activeMask = t.sound.pendingMask := by rw [soundBegins_eq]
      have p : (soundBegins s.sound.ramp t).sound.pendingMask = t.sound.pendingMask := by rw [soundBegins_eq]
      have goal : (soundAdvance s.sound.ramp t).sound.activeMask = t.sound.pendingMask := by
        rw [(soundAdvance_does s.sound.ramp t).2.2]; split
        · rcases (judgeStarved_kept (k := .soundStarved) (by decide) s.sound.ramp _ _ _ _).mask with e | e
          · exact e.trans m
          · exact e.trans p
        · exact m
      exact goal.trans (by rw [ht.pendingMask, sound])) order start (Kept.refl _) (mem (by decide))
  simp only [policy, fault, detector] at picture soundly reel
  rw [← out] at lanes lowA lowB goes faultEvent picture soundly reel blanked pictureLate soundLate mask
  rw [unpack] at pictureLate
  rw [sound] at soundLate
  have lapsed : (advance reactions s).ctl.keyLapsed = (s.ctl.keyLapsed || lapsesAt s (s.ctl.position + 1)) := by
    refine reel.1.trans ?_
    unfold starvedAfter
    cases lapsesAt s (s.ctl.position + 1) <;> simp [detectorOf]
  -- the raises, the countdown's step and the ramp
  have commits : CommitMade start ↔ CommitsAt s := by
    unfold CommitMade CommitsAt commitDue
    rw [full (Kept.refl _), position, count, ctl (·.commitUnit) fun _ _ _ => rfl, ctl (·.committed) fun _ _ _ => rfl,
      record (Kept.refl _)]
    simp [isFull, and_assoc]
  have fails : CommitFails start ↔ CommitsAt s ∧ s.count.status = .failed := by unfold CommitFails; rw [commits, count]
  have fired (m : FaultKind) : FiresAt start (advance reactions s) m ↔ RaisedAt s (advance reactions s) m := by
    unfold FiresAt RaisedAt; rw [detector, fails]
  have silence : rampFor s.sound.ramp .silence start = rampTo s.sound .silence := by rw [rampFor, sound]
  have unity : rampFor s.sound.ramp .unity start = rampTo s.sound .unity := by rw [rampFor, sound]
  have policies : policyOfKind start = policyOfKind s := funext policy
  have final {t : State} (ht : Kept start t) (e : s.ctl.position + 1 = showTotal s) : (viewOf t).state ≠ .running := fun c => by
    have n : start.ctl.state ≠ .running := by rw [(u.ended e).1]; decide
    rcases ht.show_state with g | ⟨g, _⟩
    · exact n (g.symm.trans c)
    · exact n g
  obtain ⟨early, late, w, disjoint, member, ⟨wc, wl, ws⟩, ⟨tc, tl, ts⟩, view⟩ : ∃ (early late : List FaultKind) (w : View),
      (early ++ late).Nodup ∧ (∀ m, m ∈ early ++ late ↔ RaisedAt s (advance reactions s) m) ∧
      (w.countdown = s.sup.countdown ∧ w.latched = anyLatched s ∧ w.state = start.ctl.state) ∧
      (let v := w.around (policyOfKind s) (rampTo s.sound .silence) (rampTo s.sound .unity) early late
       (advance reactions s).sup.countdown = v.countdown ∧ anyLatched (advance reactions s) = v.latched ∧
        (advance reactions s).ctl.state = v.state) ∧
      (s.ctl.position + 1 ≠ showTotal s → w = viewOf start ∧ viewOf (advance reactions s) =
        w.around (policyOfKind s) (rampTo s.sound .silence) (rampTo s.sound .unity) early late) := by
    have begin : (viewOf start).countdown = s.sup.countdown ∧ (viewOf start).latched = anyLatched s ∧
        (viewOf start).state = start.ctl.state := ⟨congrArg (·.countdown) sup, latched, rfl⟩
    by_cases e : s.ctl.position + 1 = showTotal s
    · obtain ⟨early, late, n, mem', v⟩ := foldl_around (b := s.sound.ramp) (start := start) nodup (mem (by decide))
        (mem (by decide)) (fun v => { v with ramp := rampFor s.sound.ramp .silence start })
        (fun v e => by simp [View.raise, View.holds, View.leaves, View.isOpen])
        (fun t ht => by simp [View.tick, final ht e]) (fun t _ => by rw [viewOf_soundBegins])
      rw [← out, silence, unity, policies] at v
      exact ⟨early, late, { viewOf start with ramp := rampTo s.sound .silence }, n, fun m => by rw [mem', ← out, fired], begin,
        ⟨congrArg (·.countdown) v, congrArg (·.latched) v, congrArg (·.state) v⟩, fun c => absurd e c⟩
    · obtain ⟨early, late, n, mem', v⟩ := foldl_around (b := s.sound.ramp) (start := start) nodup (mem (by decide))
        (mem (by decide)) id (fun _ _ => rfl) (fun _ _ => rfl) (fun t ht => by
          rw [viewOf_soundBegins, if_neg (by rw [at_ ht, total ht]; exact e)]; rfl)
      rw [← out, silence, unity, policies] at v
      exact ⟨early, late, _, n, fun m => by rw [mem', ← out, fired], begin, ⟨congrArg (·.countdown) v,
        congrArg (·.latched) v, congrArg (·.state) v⟩, fun _ => ⟨rfl, v⟩⟩
  have any (P : Policy) : (∃ m ∈ early ++ late, (policyOfKind s m).policy = P) ↔
      ∃ m, RaisedAt s (advance reactions s) m ∧ (policyOfKind s m).policy = P := by simp only [member]
  have going (hr : s.ctl.state = .running) (hn : s.ctl.position + 1 ≠ showTotal s) : w.state = .running :=
    ws.trans ((u.going hn).1.trans hr)
  have openStart : outputCondition s = .openOutput ↔ w.isOpen = true := by rw [open_iff, isOpen_iff, wc, wl]
  have openEnd : outputCondition (advance reactions s) = .openOutput ↔ (w.around (policyOfKind s) (rampTo s.sound .silence)
      (rampTo s.sound .unity) early late).isOpen = true := by rw [open_iff, isOpen_iff, tc, tl]
  have ramp (hn : s.ctl.position + 1 ≠ showTotal s) : (advance reactions s).sound.ramp = (w.around (policyOfKind s)
      (rampTo s.sound .silence) (rampTo s.sound .unity) early late).ramp := congrArg (·.ramp) (view hn).2
  have held (hr : s.ctl.state = .running) (hn : s.ctl.position + 1 ≠ showTotal s) :
      (advance reactions s).ctl.state = .held ↔ ∃ m ∈ early ++ late, (policyOfKind s m).policy = .latch := by
    have st := around_state (policy := policyOfKind s) (silence := rampTo s.sound .silence) (unity := rampTo s.sound .unity)
      early late w
    rw [ts]
    refine ⟨fun c => Classical.byContradiction fun n => ?_, fun c => st.1 ⟨going hr hn, c⟩⟩
    rw [st.2 fun x => n x.2, going hr hn] at c; exact absurd c (by decide)
  obtain ⟨first, last, c1, c2, c3, c4, c5⟩ := around_countdown (policy := policyOfKind s)
    (silence := rampTo s.sound .silence) (unity := rampTo s.sound .unity) early late w disjoint
  rw [← tl] at c3
  rw [← tc, wc] at c5
  rw [wl] at c4
  simp only [member] at c2 c3
  have uncounted (n : ¬ CommitsAt s) := foldl_uncounted (b := s.sound.ramp) (start := start) order fun c => n (commits.mp c)
  have failed := foldl_storeFail (b := s.sound.ramp) (start := start) (order := order) (cnt (by decide))
  rw [← out] at uncounted failed
  rw [policy, fault, fails] at failed
  have link := u.link.trans k.link
  have clock : ClockKept s.clock (advance reactions s).clock := u.clock.trans k.clock
  have clockStops : s.ctl.position + 1 = showTotal s ∨ (advance reactions s).ctl.state ≠ s.ctl.state →
      (advance reactions s).clock.substate = .idle ∧ (advance reactions s).clock.anchorDeadline = none := by
    intro h
    rcases goes with ⟨g1, g2, g3, _⟩ | ⟨_, _, g3, g4, _⟩
    · by_cases e : s.ctl.position + 1 = showTotal s
      · exact ⟨g2.trans (u.ended e).2.1, g3.trans (u.ended e).2.2⟩
      · exact absurd (g1.trans (u.going e).1) (h.resolve_left e)
    · exact ⟨g3, g4⟩
  have showEvent : (advance reactions s).link.eventPending.getLsbD 1 = true ↔ s.link.eventPending.getLsbD 1 = true ∨
      s.ctl.position + 1 = showTotal s ∨ (advance reactions s).ctl.state ≠ s.ctl.state := by
    have e1 : start.link.eventPending.getLsbD 1 = true ↔ s.link.eventPending.getLsbD 1 = true ∨
        s.ctl.position + 1 = showTotal s := by
      rw [u.showEvent, Bool.or_eq_true, decide_eq_true_iff]; exact Iff.rfl
    by_cases e : s.ctl.position + 1 = showTotal s
    · exact ⟨fun _ => .inr (.inl e), fun _ => k.link.getLsbD (e1.mpr (.inr e))⟩
    · rcases goes with ⟨g1, _, _, g4⟩ | ⟨g1, g2, _, _, g5⟩
      · have same : (advance reactions s).ctl.state = s.ctl.state := g1.trans (u.going e).1
        rw [g4, e1]; exact or_congr Iff.rfl ⟨.inl, fun c => c.resolve_right fun n => n same⟩
      · refine ⟨fun _ => .inr (.inr ?_), fun _ => g5⟩
        intro c
        exact absurd (g2.symm.trans (c.trans ((u.going e).1.symm.trans g1))) (by decide)
  exact
    { position := k.position.trans position, record := record k, mark := k.mark.trans (ctl (·.mark) fun _ _ _ => rfl)
      commitUnit := k.commitUnit.trans (ctl (·.commitUnit) fun _ _ _ => rfl)
      ended := fun e => by
        obtain ⟨e1, e2, _⟩ := u.ended e
        have n : start.ctl.state ≠ .running := by rw [e1]; decide
        refine ⟨?_, (k.idle n).trans e2⟩
        rcases k.show_state with g | ⟨g, _⟩
        · exact g.trans e1
        · exact absurd g n
      endedEvent := fun e => showEvent.mpr (.inr (.inl e))
      going := fun hr hn => by
        have e := (u.going hn).1
        rcases k.show_state with g | ⟨_, g⟩
        · exact .inl (g.trans (e.trans hr))
        · exact .inr g
      held := fun hr hn => (held hr hn).trans (any _)
      showEvent := showEvent
      clockGoes := fun hn same => by
        obtain ⟨e1, e2⟩ := u.going hn
        rcases goes with ⟨_, g2, g3, _⟩ | ⟨g1, g2, _⟩
        · exact ⟨by rw [g2, e2]; rfl, by rw [g3, e2]; rfl⟩
        · exact absurd (g2.symm.trans (same.trans (e1.symm.trans g1))) (by decide)
      clockStops := clockStops
      clockParameters := ⟨clock.value (·.window) fun _ _ _ _ => rfl, clock.value (·.lossLimit) fun _ _ _ _ => rfl⟩
      lanes := ⟨activationBound start, by
        unfold activationBound; rw [total (Kept.refl _), position]
        split
        · split
          · exact .inr ⟨‹_›, rfl⟩
          · exact .inl rfl
        · exact .inl rfl, lanes, lowA, lowB⟩
      activeMask := mask
      pendingMask := k.pendingMask.trans (by rw [sound]), soundFrontier := k.soundFrontier.trans (by rw [sound])
      pictureFrontier := k.pictureFrontier.trans (by rw [unpack]), pictureLate := pictureLate, soundLate := soundLate
      pictureStarved := pictureLate ▸ picture.1, soundStarved := soundLate ▸ soundly.1, keyLapsed := lapsed
      faults := fun m hm => by
        simp only [advanceKinds, List.mem_cons, List.not_mem_nil, or_false] at hm
        rcases hm with rfl | rfl | rfl
        · rw [picture.1]; exact picture.2.1
        · rw [soundly.1]; exact soundly.2.1
        · rw [reel.1]; exact reel.2.1
      raised := fun m hm was now => by
        have step (h : ((policyOfKind s m).policy ≠ .ignore → (advance reactions s).link.eventPending.getLsbD 0 = true) ∧
            ((policyOfKind s m).policy = .latch → anyLatched (advance reactions s) = true ∧
              (advance reactions s).ctl.state ≠ .running)) :
            ((policyOfKind s m).policy ≠ .ignore → (advance reactions s).link.eventPending.getLsbD 0 = true) ∧
            ((policyOfKind s m).policy = .latch → outputCondition (advance reactions s) = .blankLatched ∧
              (advance reactions s).ctl.state ≠ .running) :=
          ⟨h.1, fun l => ⟨by unfold outputCondition; rw [(h.2 l).1]; rfl, (h.2 l).2⟩⟩
        simp only [advanceKinds, List.mem_cons, List.not_mem_nil, or_false] at hm
        rcases hm with rfl | rfl | rfl
        · exact step (picture.2.2 was (picture.1 ▸ now))
        · exact step (soundly.2.2 was (soundly.1 ▸ now))
        · exact step (reel.2.2 was (reel.1 ▸ now))
      faultEvent := by
        rw [faultEvent, u.otherEvents 0 (by decide)]
        refine or_congr Iff.rfl ⟨?_, ?_⟩
        · rintro ⟨_, _, m, _, f, p⟩; exact ⟨m, (fired m).mp f, policy m ▸ p⟩
        · rintro ⟨m, f, p⟩
          have g := (fired m).mpr f
          obtain ⟨r, hr, hk⟩ := fires_own (mem (by decide)) (out ▸ g)
          exact ⟨r, hr, m, hk, g, (policy m).symm ▸ p⟩
      otherFaults := fun m hm => by
        have e := (foldl_stays (k := m) s.sound.ramp order start fun r _ c => by
          rcases hm with rfl | rfl | rfl | rfl <;> cases r <;> simp [raisedBy] at c).2
        rw [← out, fault] at e; exact e
      storeFailed := fun c d => failed.1 ⟨c, d⟩
      storeNotFailed := failed.2
      latched := by
        rw [tl, around_latched, wl, any]
      countdown := fun n => by
        have e1 : first = [] := List.eq_nil_iff_forall_not_mem.mpr fun m hm =>
          n m (c2 m (List.mem_append_left _ hm)).1 (c2 m (List.mem_append_left _ hm)).2
        have e2 : last = [] := List.eq_nil_iff_forall_not_mem.mpr fun m hm =>
          n m (c2 m (List.mem_append_right _ hm)).1 (c2 m (List.mem_append_right _ hm)).2
        rw [c5, e1, e2]; exact (Nat.max_zero _).trans (congrArg (· - 1) (Nat.max_zero _))
      countdownOne := fun m raised timed n only => by
        have own : ∀ j ∈ first ++ last, j = m := fun j hj => only j (c2 j hj).1 (c2 j hj).2
        have one : first ++ last = [m] := by
          refine List.perm_singleton.mp ((List.perm_ext_iff_of_nodup c1 (List.nodup_singleton m)).mpr fun j => ?_)
          rw [List.mem_singleton]
          exact ⟨own j, fun e => e ▸ c3 n m raised timed⟩
        rcases List.append_eq_singleton_iff.mp one with ⟨e1, e2⟩ | ⟨e1, e2⟩
        · left; rw [c5, e1, e2]
          simp [blankOf]
        · right; rw [c5, e1, e2]
          simp [blankOf]
      countdownOf := ⟨first, last, c1, c2, c3, c4, c5⟩
      rampEnded := fun e => by
        have r := foldl_silent (b := s.sound.ramp) (start := start) (order := order) (mem (by decide))
          (by rw [position, total (Kept.refl _)]; exact e) (by rw [(u.ended e).1]; decide)
        rw [← out, silence] at r; exact r
      rampLeft := fun hr hn h => (ramp hn).trans (around_left early late w (going hr hn) (h.imp (held hr hn).mp fun c =>
        ⟨openStart.mp c.1, Bool.eq_false_iff.mpr fun d => c.2 (openEnd.mpr d)⟩))
      rampReturned := fun hr hn blanks h c => (ramp hn).trans (around_returned blanks early late w (going hr hn)
        (Bool.eq_false_iff.mpr fun d => h (openStart.mpr d)) (openEnd.mp c))
      rampKept := fun hr hn n same => by
        have e := around_none (policy := policyOfKind s) (silence := rampTo s.sound .silence)
          (unity := rampTo s.sound .unity) early late w fun m hm => n m ((member m).mp hm)
        rw [ramp hn, e, View.tick, if_neg, (view hn).1]
        · exact congrArg (·.ramp) sound
        · rintro ⟨c, d, _⟩
          rw [e] at openEnd
          have now := openEnd.mpr ((isOpen_iff _).mpr ⟨c, by show w.countdown - 1 = 0; rw [d]⟩)
          rw [same] at now
          have := ((isOpen_iff _).mp (openStart.mp now)).2
          omega
      committed := fun c => by
        have := foldl_committed (b := s.sound.ramp) (start := start) (order := order) (mem (by decide)) (commits.mpr c)
        rwa [← out] at this
      uncounted := fun n => by
        obtain ⟨e1, e2, e3⟩ := uncounted n
        refine ⟨e1.trans (ctl (·.committed) fun _ _ _ => rfl), by rw [count] at e2; exact e2, fun e he => ?_⟩
        exact (e3 e he).trans (u.countEvents e he)
      blankedNever := blanked.1, blanked := blanked.2.1
      blankedOpen := fun h0 h1 timed => blanked.2.2.1 h0 h1 fun m p d => by
        cases hm : detectorOf start m
        · exact absurd (policy m ▸ p) (timed m (.inl ⟨(detector m).symm.trans hm, d⟩))
        · rfl
      blankedEither := blanked.2.2.2
      pending := k.pending.trans (rest (·.pending) fun _ _ _ _ => rfl)
      power := k.power.trans (rest (·.power) fun _ _ _ _ => rfl), path := k.path.trans (rest (·.path) fun _ _ _ _ => rfl)
      keys := k.keys.trans keys, secure := k.secure.trans (rest (·.secure) fun _ _ _ _ => rfl)
      overlay := k.overlay.trans (rest (·.overlay) fun _ _ _ _ => rfl), free := k.free.trans (rest (·.free) fun _ _ _ _ => rfl)
      out := k.out.trans (rest (·.out) fun _ _ _ _ => rfl)
      ctlRest := by
        have same : ∀ c d : Controller, d.record = c.record → d.mark = c.mark → d.commitUnit = c.commitUnit →
            d = { c with
              state := d.state, position := d.position, committed := d.committed, keyLapsed := d.keyLapsed } := by
          rintro ⟨⟩ ⟨⟩ rfl rfl rfl; rfl
        exact same _ _ (record k) (k.mark.trans (ctl (·.mark) fun _ _ _ => rfl))
          (k.commitUnit.trans (ctl (·.commitUnit) fun _ _ _ => rfl))
      unpackRest := by
        have same : ∀ c d : Unpack, (d.withheldPicture, d.withheldSound, d.checkedUnits, d.uncheckedUnits, d.unitCheck) =
            (c.withheldPicture, c.withheldSound, c.checkedUnits, c.uncheckedUnits, c.unitCheck) → d.context0 = c.context0 →
            d.context1 = c.context1 → d.frontier = c.frontier → d.limit = c.limit →
            d = { c with late := d.late, starved := d.starved } := by
          rintro ⟨⟩ ⟨⟩ h rfl rfl rfl rfl; simp only [Prod.mk.injEq] at h; obtain ⟨rfl, rfl, rfl, rfl, rfl⟩ := h; rfl
        have e := same _ _ k.unpackCounts k.contexts.1 k.contexts.2 k.pictureFrontier k.pictureLimit
        rwa [unpack] at e
      soundRest := by
        have same : ∀ c d : Sound, d.pendingMask = c.pendingMask → d.rampLength = c.rampLength → d.frontier = c.frontier →
            d.limit = c.limit →
            d = { c with ramp := d.ramp, activeMask := d.activeMask, late := d.late, starved := d.starved } := by
          rintro ⟨⟩ ⟨⟩ rfl rfl rfl rfl; rfl
        have e := same _ _ k.pendingMask k.rampLength k.soundFrontier k.soundLimit
        rwa [sound] at e
      supRest := by
        have same : ∀ c d : Supervisor, d.policies = c.policies → d.watchdog = c.watchdog →
            d = { c with faults := d.faults, countdown := d.countdown } := by
          rintro ⟨⟩ ⟨⟩ rfl rfl; rfl
        have e := same _ _ k.policies k.watchdog
        rwa [sup] at e
      linkRest := by
        obtain ⟨x, e⟩ := link
        rw [e]; rfl }

/-! ### SYNC_LOSS and the clock -/

/-- The Show Controller's own step leaves SYNC_LOSS. -/
theorem takeAdvance_leaves_syncLoss (s : State) : Stays .syncLoss s (takeAdvance (s.setFree (s.free + 1))) := by
  have u := takeAdvance_does (s.setFree (s.free + 1))
  exact ⟨u.syncLoss, by rw [u.rest]; rfl⟩

theorem react_syncLoss (b : GainRamp) (s : State) (r : Reaction) (h : r ≠ .syncLoss) :
    (react b s r).clock.syncLoss = s.clock.syncLoss :=
  (react_stays (k := .syncLoss) (fun c => h (raisedBy_injective c rfl)) b s).1

/-- An advance without a miss leaves SYNC_LOSS, its condition and its entry. -/
theorem advance_leaves_syncLoss (s : State) : Stays .syncLoss s (advance blockReactions s) := by
  refine (takeAdvance_leaves_syncLoss s).trans (foldl_stays _ _ _ fun r hr c => ?_)
  have : r = .syncLoss := raisedBy_injective c rfl
  subst this
  exact absurd ((shuffle_perm _ _).mem_iff.mp hr) (by decide)

theorem advance_syncLoss (s : State) : (advance blockReactions s).clock.syncLoss = s.clock.syncLoss := (advance_leaves_syncLoss s).1

/-- An advance at the miss that comes to the loss limit: SYNC_LOSS is active, and raised if it was not (R28). -/
theorem advance_miss_own (s : State) : (advance (.syncLoss :: blockReactions) s).clock.syncLoss = true ∧
    faultOf (advance (.syncLoss :: blockReactions) s) .syncLoss =
      conditionEntry (policyOfKind s .syncLoss).policy .syncLoss s.clock.syncLoss true (faultOf s .syncLoss) := by
  obtain ⟨before, after, cut, nb, na⟩ :=
    split_once (order := shuffle (.syncLoss :: blockReactions) (Config.advanceOrder s.free)) (own := .syncLoss)
      (by rw [(shuffle_perm _ _).count_eq]; decide)
  have none_of (l : List Reaction) (n : .syncLoss ∉ l) : ∀ r ∈ l, raisedBy r ≠ some .syncLoss := fun r hr c =>
    n ((raisedBy_injective c rfl : r = .syncLoss) ▸ hr)
  have first := (takeAdvance_leaves_syncLoss s).trans (foldl_stays s.sound.ramp before _ (none_of before nb))
  have policy : policyOfKind (before.foldl (react s.sound.ramp) (takeAdvance (s.setFree (s.free + 1)))) .syncLoss =
      policyOfKind s .syncLoss := by
    simp only [policyOfKind, (foldl_kept s.sound.ramp before _).policies]
    rw [(takeAdvance_does _).rest]; rfl
  have own := raiseCondition_own (k := .syncLoss) rfl s.sound.ramp
    (before.foldl (react s.sound.ramp) (takeAdvance (s.setFree (s.free + 1))))
  have last := foldl_stays (k := .syncLoss) s.sound.ramp after
    (raiseCondition s.sound.ramp .syncLoss (before.foldl (react s.sound.ramp) (takeAdvance (s.setFree (s.free + 1)))))
    (none_of after na)
  rw [policy, first.1, first.2] at own
  have e : advance (.syncLoss :: blockReactions) s = after.foldl (react s.sound.ramp)
      (raiseCondition s.sound.ramp .syncLoss (before.foldl (react s.sound.ramp) (takeAdvance (s.setFree (s.free + 1))))) := by
    unfold advance advanceIn; rw [cut, List.foldl_append, List.foldl_cons]; rfl
  rw [e]
  exact ⟨last.1.trans own.1, last.2.trans own.2⟩

theorem advance_miss_syncLoss (s : State) : (advance (.syncLoss :: blockReactions) s).clock.syncLoss = true :=
  (advance_miss_own s).1

/-- An advance changes of the clock only what a hold, the end of the show and SYNC_LOSS change. -/
theorem advance_clock {reactions : List Reaction} (s : State) : ClockKept s.clock (advance reactions s).clock :=
  (takeAdvance_does (s.setFree (s.free + 1))).clock.trans (foldl_kept _ _ _).clock

/-- `Advanced` speaks neither of the clock's counts before the advance nor of the Supervisor's entry of SYNC_LOSS, and of its
condition only where it becomes active. -/
theorem Advanced.ofSyncLoss {s s' t : State} (h : Advanced s' t)
    (e : s' = { s with clock := s'.clock, sup := { s.sup with faults := s'.sup.faults } })
    (clock : (s'.clock.substate, s'.clock.anchorDeadline, s'.clock.window, s'.clock.lossLimit) =
      (s.clock.substate, s.clock.anchorDeadline, s.clock.window, s.clock.lossLimit))
    (syncLoss : t.clock.syncLoss = false ∨ s'.clock.syncLoss = s.clock.syncLoss)
    (faults : ∀ k, k ≠ .syncLoss → faultOf s' k = faultOf s k) (latched : anyLatched s' = anyLatched s) : Advanced s t := by
  have detector (k : FaultKind) (hk : k ≠ .syncLoss) : detectorOf s' k = detectorOf s k := by
    rw [e]; cases k <;> first | rfl | exact absurd rfl hk
  have named {k : FaultKind} (hk : k ∈ advanceKinds) : k ≠ .syncLoss := by rintro rfl; exact absurd hk (by decide)
  have output : outputCondition s' = outputCondition s := by
    unfold outputCondition; rw [latched, e]
  have raised : RaisedAt s' t = RaisedAt s t := funext fun k => by
    have commits : CommitsAt s' = CommitsAt s := by rw [e]; rfl
    have status : s'.count.status = s.count.status := by rw [e]
    unfold RaisedAt; rw [commits, status]
    by_cases hk : k = .syncLoss
    · subst hk
      rcases syncLoss with c | c
      · simp [detectorOf, c]
      · simp [detectorOf, c]
    · rw [detector k hk]
  have policy : policyOfKind s' = policyOfKind s := by rw [e]; rfl
  have hf : ∀ k ∈ advanceKinds, faultOf t k =
      conditionEntry (policyOfKind s k).policy k (detectorOf s k) (detectorOf t k) (faultOf s k) := fun k hk => by
    rw [h.faults k hk, detector k (named hk), faults k (named hk), policy]
  have hr : ∀ k ∈ advanceKinds, detectorOf s k = false → detectorOf t k = true → _ := fun k hk => by
    rw [← detector k (named hk)]; exact h.raised k hk
  have ho : ∀ k, k = .unitCheck ∨ k = .watchdog ∨ k = .cueOverrun ∨ k = .access → faultOf t k = faultOf s k := fun k hk => by
    rw [h.otherFaults k hk, faults]; rintro rfl; simp at hk
  have sf := h.storeFailed
  have sn := h.storeNotFailed
  rw [faults .storeFail (by decide)] at sf sn
  obtain ⟨held, latch, countdown, one, many, left, returned, kept, blanked, blankedOpen, fault, goes, parameters⟩ :=
    (⟨h.held, h.latched, h.countdown, h.countdownOne, h.countdownOf, h.rampLeft, h.rampReturned, h.rampKept, h.blanked,
      h.blankedOpen, h.faultEvent, h.clockGoes, h.clockParameters⟩ : _ ∧ _ ∧ _ ∧ _ ∧ _ ∧ _ ∧ _ ∧ _ ∧ _ ∧ _ ∧ _ ∧ _ ∧ _)
  simp only [Prod.mk.injEq] at clock
  simp only [BlanksNothing, raised, latched, output] at held latch countdown one many left returned kept blanked blankedOpen
  simp only [raised, clock] at fault goes parameters
  have link : s'.link = s.link := by rw [e]
  have state : s'.ctl = s.ctl := by rw [e]
  have total : showTotal s' = showTotal s := by unfold showTotal; rw [state]
  rw [link] at fault
  rw [state, total] at goes
  clear clock link state total
  clear faults detector named latched output raised policy syncLoss
  generalize s'.clock = clock at e
  generalize s'.sup.faults = entries at e
  subst e
  exact { h with
    faults := hf, raised := hr, otherFaults := ho, storeFailed := sf, storeNotFailed := sn, held := held, latched := latch,
    countdown := countdown, countdownOne := one, countdownOf := many, rampLeft := left, rampReturned := returned,
    rampKept := kept, blanked := blanked, blankedOpen := blankedOpen, faultEvent := fault, clockGoes := goes,
    clockParameters := parameters }

/-- Neither does it where the clock alone differs. -/
theorem Advanced.ofClock {s s' t : State} (h : Advanced s' t) (e : s' = { s with clock := s'.clock })
    (clock : (s'.clock.substate, s'.clock.anchorDeadline, s'.clock.window, s'.clock.lossLimit) =
      (s.clock.substate, s.clock.anchorDeadline, s.clock.window, s.clock.lossLimit))
    (syncLoss : s'.clock.syncLoss = s.clock.syncLoss) : Advanced s t := by
  refine h.ofSyncLoss (by rw [e]) clock (.inr syncLoss) (fun k _ => ?_) ?_ <;> rw [e] <;> rfl

end Sys2Proof.Machine
end

