-- ==== Sys2Proof/Laws/Checks.lean ====
section
/-! SUPPORT. Laws/Checks.lean: what a request does, said once: received or not (`onLink`, `whenOn`), and under a table of checks the
refusal of the first row that fails (`checked`, `judged`). -/

namespace Sys2Proof.Machine

theorem linkReady_iff (s : State) : linkReady s = true ↔ Linked s := by
  simp [linkReady, Linked, and_assoc]

theorem onLink_linked {s : State} (h : Linked s) (n : Nat) (f : State → State) :
    onLink n s f = acknowledging n (f (quiet s)) := by
  rw [onLink, if_pos ((linkReady_iff s).mpr h)]; rfl

theorem onLink_not_linked {s : State} (h : ¬ Linked s) (n : Nat) (f : State → State) : onLink n s f = transferLost (quiet s) := by
  rw [onLink, if_neg fun c => h ((linkReady_iff s).mp c)]

theorem whenOn_on {s : State} (h : s.power.on = true) (f : State → State) : whenOn s f = f (quiet s) := by
  simp [whenOn, h]

theorem whenOn_off {s : State} (h : s.power.on = false) (f : State → State) : whenOn s f = quiet s := by
  simp [whenOn, h]

theorem answer_quiet (s : State) (r : LinkResult) (d : Nat) : answer r d (quiet s) = refusedAs s r d := rfl

theorem checked_nil (accept : State → State) (s : State) : checked [] accept s = accept s := rfl

theorem checked_cons (c : Check) (cs : List Check) (accept : State → State) (s : State) :
    checked (c :: cs) accept s = if c.pass then checked cs accept s else answer c.result c.detail s := by
  cases h : c.pass <;> simp [checked, firstFailure, h]

/-- A check and a row say the same. -/
def Agree (c : Check) (row : Row) : Prop := c.pass = row.holds ∧ c.result = row.result ∧ c.detail = row.detail

/-- A request whose checks say row by row what a table says is judged by the table. -/
theorem checked_eq_judged {s accepted : State} {checks : List Check} {rows : List Row} {accept : State → State}
    (h : List.Forall₂ Agree checks rows) (ha : accept (quiet s) = accepted) :
    checked checks accept (quiet s) = judged s accepted rows := by
  induction h with
  | nil => exact ha
  | cons hc _ ih =>
    rw [checked_cons, ih, judged, hc.1, hc.2.1, hc.2.2, answer_quiet]

/-- A request refused at a check changes nothing but the answer. -/
theorem checked_refused {s : State} {checks : List Check} {accept : State → State} {r : LinkResult} {d : Nat}
    (h : firstFailure checks = some (r, d)) : checked checks accept (quiet s) = refusedAs s r d := by
  simp [checked, h, answer_quiet]

/-- A request that passes every check is carried out. -/
theorem checked_accepted {s : State} {checks : List Check} {accept : State → State}
    (h : firstFailure checks = none) : checked checks accept s = accept s := by
  simp [checked, h]

/-- A law kept by the acceptance and by the answer is kept by the request. -/
theorem checked_keeps {P : State → Prop} {checks : List Check} {accept : State → State} {s : State}
    (ha : firstFailure checks = none → P (accept s)) (hr : ∀ r d, P (answer r d s)) : P (checked checks accept s) := by
  unfold checked
  split
  · exact hr _ _
  · rename_i h; exact ha h

/-- No check of a table fails exactly when every check passes. -/
theorem firstFailure_none {checks : List Check} : firstFailure checks = none ↔ ∀ c ∈ checks, c.pass = true := by
  simp [firstFailure]

/-- A law kept by what a request does, and that hangs on no port, is kept whether the request is received or not. -/
theorem onLink_keeps {P : State → Prop} {n : Nat} {s : State} {f : State → State} (h0 : P (transferLost (quiet s)))
    (h1 : P (f (quiet s))) (ports : ∀ t, P t → P (acknowledge n t)) : P (onLink n s f) := by
  unfold onLink; split
  · exact ports _ h1
  · exact h0

/-- A law kept by what an event does is kept whether the part has supply or not. -/
theorem whenOn_keeps {P : State → Prop} {s : State} {f : State → State} (h0 : P (quiet s)) (h1 : P (f (quiet s))) :
    P (whenOn s f) := by
  unfold whenOn; split <;> assumption

end Sys2Proof.Machine
end

