-- ==== Sys2Proof/Laws/Records.lean ====
section
/-! SUPPORT. Laws/Records.lean: every record as read is its fields laid one after the other (Tables 11-10, 11-12 to 11-22), and none
carries key material (R58, R59). -/

namespace Sys2Proof.Machine

/-! ### Fields as bytes -/

theorem beBytes_laid (n v : Nat) : (List.range n).map (fun k => BitVec.ofNat 8 (v / 256 ^ (n - 1 - k))) = beBytes n v := by
  induction n with
  | zero => rfl
  | succ n ih =>
    rw [List.range_succ_eq_map, List.map_cons, List.map_map, beBytes]
    congr 1
    rw [← ih]
    refine List.map_congr_left fun k _ => ?_
    show BitVec.ofNat 8 (v / 256 ^ (n + 1 - 1 - (k + 1))) = _
    rw [show n + 1 - 1 - (k + 1) = n - 1 - k by omega]

theorem laid_nil : laid [] = [] := rfl

theorem laid_cons (n v : Nat) (fields : List (Nat × Nat)) : laid ((n, v) :: fields) = beBytes n v ++ laid fields := by
  rw [← beBytes_laid]; rfl

theorem laid_append (a b : List (Nat × Nat)) : laid (a ++ b) = laid a ++ laid b := by simp [laid]

theorem laid_flatMap {α : Type} (xs : List α) (f : α → List (Nat × Nat)) : laid (xs.flatMap f) = xs.flatMap fun x => laid (f x) := by
  induction xs with
  | nil => rfl
  | cons x xs ih => rw [List.flatMap_cons, laid_append, ih, List.flatMap_cons]

theorem laid_map {α : Type} (n : Nat) (xs : List α) (f : α → Nat) :
    laid (xs.map fun x => (n, f x)) = xs.flatMap fun x => beBytes n (f x) := by
  induction xs with
  | nil => rfl
  | cons x xs ih => rw [List.map_cons, laid_cons, ih, List.flatMap_cons]

theorem beBytes_one (v : Nat) : beBytes 1 v = [oneByte v] := by simp [beBytes, oneByte]

theorem zeroBytes_laid (n : Nat) : zeroBytes n = beBytes n 0 := by
  induction n with
  | zero => rfl
  | succ n ih => rw [beBytes, ← ih, Nat.zero_div]; rfl

theorem flagByte_laid (b : Bool) : flagByte b = oneByte (bitAt b 0) := by cases b <;> rfl

theorem signedBytes_laid (v : Int) : signedBytes v = beBytes 2 (twosComplement v) := by
  unfold signedBytes twosComplement; congr 1

theorem oneByte_toNat (b : Byte) : oneByte b.toNat = b := by simp [oneByte]

theorem kindMask_laid (f : FaultKind → Bool) : kindMask f = beBytes 2 (maskOf f) := by
  unfold kindMask maskOf
  congr 1
  simp only [allKinds, List.map_cons, List.map_nil, List.foldr_cons, List.foldr_nil, List.sum_cons, List.sum_nil, bitAt, faultIndex]
  repeat' split
  all_goals rfl

theorem bitAt_eq (b : Bool) (i : Nat) : bitAt b i = 2 ^ i * bitAt b 0 := by cases b <;> simp [bitAt]

/-! ### The records -/

theorem region_laid (e : RegionEntry) : regionRecordBytes e = laid (regionFields e) := by
  have kind : regionKindCode e.kind = oneByte (match e.kind with
      | .openMemory => 0 | .pictureEssence => 1 | .soundEssence => 2 | .frame => 3 | .plane => 4 | .cue => 5) := by
    cases e.kind <;> rfl
  simp only [regionRecordBytes, regionFields, kind, laid_cons, laid_nil, zeroBytes_laid, beBytes_one, flagByte_laid, oneByte_toNat,
    List.append_assoc, List.cons_append, List.nil_append, List.append_nil]
  cases e.range <;> rfl

theorem key_laid (x : KeySlot) : keyRecord x = laid (keyRecordFields x) := by
  have kind (k : EssenceKind) : essenceKindCode k = oneByte (match k with | .picture => 1 | .sound => 2) := by cases k <;> rfl
  cases x <;> simp only [keyRecord, keyFieldsOf, keyRecordFields, kind, laid_cons, laid_nil, zeroBytes_laid, beBytes_one,
    List.append_assoc, List.cons_append, List.nil_append, List.append_nil] <;> rfl

theorem licence_laid (x : LicenceSlot) (reserved : Bool) : licenceRecord x reserved = laid (licenceFields x reserved) := by
  cases x <;> simp only [licenceRecord, licenceFields, slotLicence, laid_cons, laid_nil, zeroBytes_laid, beBytes_one,
    flagByte_laid, List.append_assoc, List.cons_append, List.nil_append, List.append_nil] <;> rfl

theorem show_laid (s : State) : showRecord s = laid (showFields s.ctl.record) := by
  have rate (x : EditRate) : editRateCode x = oneByte (match x with
      | .r24 => 0 | .r25 => 1 | .r30 => 2 | .r48 => 3 | .r50 => 4 | .r60 => 5 | .r24000over1001 => 6) := by cases x <;> rfl
  have sample (x : SampleRate) : sampleRateCode x = oneByte (match x with | .hz48000 => 0 | .hz96000 => 1) := by cases x <;> rfl
  have sync (x : SyncSource) : syncSourceCode x = oneByte (match x with | .projector => 0 | .internal => 1) := by cases x <;> rfl
  unfold showRecord showFields
  cases s.ctl.record with
  | none => simp only [laid_cons, laid_nil, zeroBytes_laid, List.append_nil]
  | some r =>
    simp only [rate, sample, sync, laid_flatMap, laid_cons, laid_nil, beBytes_one, List.append_assoc,
      List.cons_append, List.nil_append, List.append_nil] <;> rfl

theorem filter_laid (s : State) (index : Nat) : filterTableRecord s index = laid (filterFields s.cues index) := by
  have action (x : FilterAction) : filterActionCode x = oneByte (match x with | .laneA => 0 | .laneB => 1 | .reject => 2) := by
    cases x <;> rfl
  have lane (x : Lane) : laneRecord x = laid (
    let update := x.active.bind (·.update)
    [(1, x.lowMark), (1, x.queue.length), (1, bitAt x.active.isSome 0 + bitAt update.isSome 1 + bitAt (x.queue ≠ []) 2), (1, 0),
     (4, fieldOr x.active (·.cue.number)), (3, fieldOr x.active (·.cue.inUnit)), (3, fieldOr x.active (·.cue.outUnit)),
     (1, fieldOr x.active (·.cue.fadeDown)), (1, fieldOr update (·.fadeDown)), (3, fieldOr update (·.outUnit)), (1, 0),
     (4, fieldOr x.queue.head? (·.number)), (3, fieldOr x.queue.head? (·.inUnit)), (1, 0), (2, x.counts.inserted),
     (2, x.counts.replaced), (2, x.counts.updated), (2, x.counts.late), (2, x.counts.overrun), (2, x.counts.skipped),
     (2, x.counts.cut), (2, x.counts.retired), (4, 0)]) := by
    obtain ⟨queue, active, low, counts⟩ := x
    cases queue <;> rcases active with _ | ⟨cue, _ | u⟩ <;>
      simp only [laneRecord, activeBytes, headBytes, hasUpdate, laid_cons, laid_nil, beBytes_one, zeroBytes_laid, List.append_assoc,
        List.cons_append, List.nil_append, List.append_nil] <;> rfl
  unfold filterTableRecord filterFields
  split
  · simp only [filterRecord, action, flagByte_laid, laid_cons, laid_nil, beBytes_one, zeroBytes_laid, List.append_assoc,
      List.cons_append, List.nil_append, List.append_nil] <;> rfl
  · split
    · simp only [intakeRecord, action, laid_cons, laid_nil, beBytes_one, zeroBytes_laid, List.append_assoc,
        List.cons_append, List.nil_append, List.append_nil] <;> rfl
    · split <;> exact lane _

theorem policy_laid (s : State) (k : FaultKind) : policyRecord s k = laid (policyFields s k) := by
  have code (p : Policy) : policyCode p = oneByte (match p with | .ignore => 0 | .report => 1 | .timed => 2 | .latch => 3) := by
    cases p <;> rfl
  cases k <;> simp only [policyRecord, policyFields, policyFurther, code, flagByte_laid, laid_cons, laid_nil, beBytes_one,
    zeroBytes_laid, List.cons_append, List.nil_append, List.append_nil] <;> rfl

theorem log_laid (r : LogRecord) : logRecord r = laid (logFields r) := by
  have code (o : OutputCondition) : outputCode o = oneByte (conditionCode o) := by cases o <;> rfl
  simp only [logRecord, logFields, code, laid_cons, laid_nil, beBytes_one, List.append_assoc, List.cons_append, List.nil_append,
    List.append_nil]

theorem clock_laid (s : State) : clockRecord s = laid (clockFields s.clock) := by
  have code (x : Substate) : substateCode x = oneByte (match x with | .idle => 0 | .awaitingAnchor => 1 | .tracking => 2) := by
    cases x <;> rfl
  have last (x : Option Time) : (x.getD 0#48).toNat = fieldOr x (·.toNat) := by cases x <;> rfl
  simp only [clockRecord, clockFields, code, last, flagByte_laid, laid_cons, laid_nil, beBytes_one, zeroBytes_laid, List.append_assoc,
    List.cons_append, List.nil_append, List.append_nil] <;> rfl

theorem link_laid (s : State) : linkRecord s = laid (linkFields s.link) := by
  have code (x : LinkResult) : resultCode x = oneByte (match x with
      | .ok => 0 | .badCrc => 1 | .badTable => 2 | .badIndex => 3 | .badLength => 4 | .refusedState => 5 | .refusedValue => 6
      | .busy => 7 | .keyWrap => 8 | .storeFailed => 9) := by cases x <;> rfl
  simp only [linkRecord, linkFields, code, signedBytes_laid, laid_cons, laid_nil, beBytes_one, List.cons_append,
    List.nil_append, List.append_nil] <;> rfl

theorem status_laid (s : State) : statusRecord s = laid (statusFields s) := by
  have state (x : ShowState) : showStateCode x = oneByte (match x with
      | .empty => 0 | .loaded => 1 | .primed => 2 | .running => 3 | .held => 4 | .ended => 5) := by cases x <;> rfl
  have mark (x : Mark) : markCode x = oneByte (match x with | .none => 0 | .full => 1 | .preview => 2) := by cases x <;> rfl
  have store (x : StoreStatus) : storeCode x = oneByte (match x with | .ready => 0 | .busy _ => 1 | .failed => 2) := by
    cases x <;> rfl
  have output (o : OutputCondition) : outputCode o = oneByte (conditionCode o) := by cases o <;> rfl
  have two (a b : Bool) : flagBits [a, b] = oneByte (bitAt a 0 + bitAt b 1) := by
    unfold flagBits; congr 1
    rw [bitAt_eq b 1]; simp only [List.foldr, bitAt, Nat.pow_zero]; omega
  have eight (a b c d e f g h : Bool) : flagBits [a, b, c, d, e, f, g, h] = oneByte (bitAt a 0 + bitAt b 1 + bitAt c 2 +
      bitAt d 3 + bitAt e 4 + bitAt f 5 + bitAt g 6 + bitAt h 7) := by
    unfold flagBits; congr 1
    rw [bitAt_eq b 1, bitAt_eq c 2, bitAt_eq d 3, bitAt_eq e 4, bitAt_eq f 5, bitAt_eq g 6, bitAt_eq h 7]
    simp only [List.foldr, bitAt, Nat.pow_zero]; omega
  have reels : statusReels s = laid ((List.range 16).map fun i => (3, fieldOr s.ctl.record (reelStart · i))) := by
    rw [laid_map]; unfold statusReels
    cases s.ctl.record with
    | none => rfl
    | some r => rfl
  have frontier (x : Option Nat) : x.getD 0 = fieldOr x id := by cases x <;> rfl
  have check (x : Option UnitCheckRecord) : unitCheckBytes x = laid
      [(1, fieldOr x fun r => match r.cause with | .number => 0 | .length => 1 | .crc => 2), (3, fieldOr x (·.unit)),
       (1, fieldOr x (·.reel)), (2, fieldOr x (·.further))] := by
    rcases x with _ | ⟨cause, unit, reel, further⟩
    · rfl
    · simp only [unitCheckBytes, laid_cons, laid_nil, beBytes_one, List.append_assoc, List.cons_append, List.nil_append,
        List.append_nil]
      cases cause <;> rfl
  have access (x : Option AccessRecord) : accessBytes x = laid
      [(1, fieldOr x fun r => originatorTag r.who + bitAt (r.cause = .protectedRead) 7), (1, fieldOr (x.bind (·.region)) (·.val)),
       (5, fieldOr x (·.line)), (2, fieldOr x (·.further))] := by
    rcases x with _ | ⟨cause, who, region, line, further⟩
    · rfl
    · simp only [accessBytes, laid_cons, laid_nil, beBytes_one, List.cons_append, List.nil_append, List.append_nil]
      cases cause <;> rfl
  have raises : (allKinds.map fun k => oneByte (faultOf s k).raises) =
      laid (allKinds.map fun k => (1, (faultOf s k).raises)) := by
    rw [laid_map]; simp only [beBytes_one]; exact List.map_eq_flatMap
  have reel : showReel s = fieldOr s.ctl.record (currentReel · s.ctl.position) := by
    unfold showReel; cases s.ctl.record <;> rfl
  have total : showTotal s = fieldOr s.ctl.record totalDuration := by unfold showTotal; cases s.ctl.record <;> rfl
  have spu : showSpu s = fieldOr s.ctl.record samplesPerUnit := by unfold showSpu; cases s.ctl.record <;> rfl
  have target (x : RampTarget) : (x == .unity) = decide (x = .unity) := by cases x <;> rfl
  simp only [statusRecord, statusShow, reels, statusSecure, statusUnpack, withheldBytes, check, statusSound, statusOverlay, access,
    statusCount, statusSupervisor, raises, reel, total, spu, target, two, eight, frontier, state, mark, store, output,
    kindMask_laid, signedBytes_laid, statusFields, laid_append, laid_cons, laid_nil, beBytes_one, List.append_assoc,
    List.cons_append, List.nil_append, List.append_nil] <;> rfl

/-! ### The table -/

/-- A record as read is its fields, each with the length its table gives. -/
theorem recordBytes_laid {s : State} {t : LinkTable} {index : Nat} {bytes : List Byte} (h : recordBytes s t index = some bytes) :
    bytes = laid (recordFields s t index) := by
  unfold recordBytes at h
  split at h
  · exact nomatch h
  · rename_i inside
    cases t
    case ident =>
      obtain rfl := Option.some.inj h
      show beBytes 2 640 ++ _ = _
      have a : oneByte (linkAddress s) = oneByte (88 + s.power.straps.toNat) := rfl
      simp only [recordFields, a, laid_cons, laid_nil, beBytes_one, zeroBytes_laid, List.cons_append, List.nil_append,
        List.append_nil] <;> rfl
    case region => obtain rfl := Option.some.inj h; exact region_laid _
    case key => obtain rfl := Option.some.inj h; exact key_laid _
    case licence =>
      obtain rfl := Option.some.inj h
      refine (licence_laid _ _).trans (congrArg (fun b => laid (licenceFields _ b)) ?_)
      have small : index < 8 := by simpa [tableIndexes] using inside
      rcases s.count.reserved with _ | x
      · rfl
      · rw [Bool.eq_iff_iff]
        simp only [beq_iff_eq, Option.some.injEq, Fin.ext_iff, Fin.val_ofNat, Nat.mod_eq_of_lt small, Option.map_some,
          decide_eq_true_eq]
    case showing => obtain rfl := Option.some.inj h; exact show_laid s
    case filter => obtain rfl := Option.some.inj h; exact filter_laid s index
    case policy =>
      have small : index < 9 := by simpa [tableIndexes] using inside
      obtain ⟨k, hk, rfl⟩ := Option.map_eq_some_iff.mp h
      have e : allKinds[index]? = some k := by
        rw [← hk]; revert small; clear * -; intro small; interval_cases index <;> rfl
      rw [policy_laid, recordFields, e]; rfl
    case status => obtain rfl := Option.some.inj h; exact status_laid s
    case log =>
      obtain ⟨r, hr, rfl⟩ := Option.map_eq_some_iff.mp h
      rw [log_laid, recordFields, hr]; rfl
    case events =>
      obtain rfl := Option.some.inj h
      have byte (x : BitVec 7) : x.setWidth 8 = oneByte x.toNat := by rw [oneByte, BitVec.ofNat_toNat]
      simp only [eventsRecord, recordFields, byte, laid_cons, laid_nil, beBytes_one, List.cons_append, List.nil_append]
      rfl
    case clock => obtain rfl := Option.some.inj h; exact clock_laid s
    case link => obtain rfl := Option.some.inj h; exact link_laid s

/-- STATUS and POLICY records do not hang on the key slots. -/
theorem statusFields_keys (s : State) (keys : Vector KeySlot 16) : statusFields { s with keys := keys } = statusFields s := by
  cases s; rfl

theorem policyRecord_keys (s : State) (keys : Vector KeySlot 16) : policyRecord { s with keys := keys } = policyRecord s := by
  funext k; cases k <;> rfl

/-- No record carries key material (R58, R59): the content keys may be any. -/
theorem recordBytes_withMaterial (s : State) (g : BitVec 128 → BitVec 128) (t : LinkTable) (index : Nat) :
    recordBytes { s with keys := Vector.ofFn fun i => withMaterial g s.keys[i] } t index = recordBytes s t index := by
  unfold recordBytes
  split
  · rfl
  · cases t <;> dsimp only
    case key =>
      refine congrArg some ?_
      have e : (Vector.ofFn fun i : Fin 16 => withMaterial g s.keys[i])[Fin.ofNat 16 index] =
          withMaterial g s.keys[Fin.ofNat 16 index] := by simp
      rw [e]; cases s.keys[Fin.ofNat 16 index] <;> rfl
    case status => rw [status_laid, status_laid, statusFields_keys]
    case policy => rw [policyRecord_keys]
    all_goals rfl

end Sys2Proof.Machine
end

