-- ==== Sys2Proof/Laws/Show.lean ====
section
/-! SUPPORT. Laws/Show.lean: what a priming and a stop do to the other blocks, each written as one state. -/

namespace Sys2Proof.Machine

/-- What a priming does to the Unpack Engine, the Sound Stage and the Supervisor (R44, R46, R86, R98). -/
theorem primeBlocks_eq (s : State) : primeBlocks s = { s with
      unpack := { s.unpack with context0 := none, context1 := none, frontier := none, late := 0, starved := false }
      sound := { s.sound with
        frontier := none, late := 0, starved := false
        ramp := { startSample := 0, startGain := 32768, target := .unity, length := s.sound.rampLength } }
      sup := withdrawn [.pictureStarved, .soundStarved] s.sup } := by
  simp only [primeBlocks, unityRamp, clearSoundShow, clearUnpackShow, withdraw, setDetector, modFault, faultOf,
    State.setSound, State.setUnpack, State.setSup, withdrawn, List.foldl]

/-- What the end of a loaded show withdraws (R53). -/
theorem withdrawShow_eq (s : State) : withdrawShow s = { s with
      clock := { s.clock with syncLoss := false }
      unpack := { s.unpack with starved := false }
      sound := { s.sound with starved := false }
      ctl := { s.ctl with keyLapsed := false }
      sup := withdrawn [.syncLoss, .pictureStarved, .soundStarved, .keyLapsed] s.sup } := by
  simp only [withdrawShow, withdraw, setDetector, modFault, faultOf,
    State.setSound, State.setUnpack, State.setSup, State.setClock, State.setCtl, withdrawn, List.foldl]

end Sys2Proof.Machine
end

