-- ==== Sys2Proof/Laws/Values.lean ====
section
/-! SUPPORT. Laws/Values.lean: what the shared computations answer: a word of a line built of words, the bounds of the gain (R91), of
a scaled sample (R88) and of a composited component, and the parts of a composited pixel word (R125). -/

namespace Sys2Proof.Machine

/-- A word of the line made of a list of words is that word of the list. -/
theorem lineWord_words (ws : List (BitVec 32)) : ∀ i, i < 16 → lineWord (lineOfWords ws) i = ws.getD i 0#32 := by
  induction ws with
  | nil => intro i hi; simp [lineOfWords, lineWord]
  | cons w ws ih =>
    intro i hi
    rw [lineOfWords]
    cases i with
    | zero =>
      simp only [List.getD_cons_zero, lineWord]
      ext j hj
      simp only [BitVec.getElem_extractLsb', BitVec.getLsbD_or, BitVec.getLsbD_setWidth, BitVec.getLsbD_shiftLeft]
      have h1 : (32 * 0 + j) < 512 := by omega
      have h2 : (32 * 0 + j) < 32 := by omega
      have h3 : j < 512 := by omega
      simp [h3, hj]
    | succ i =>
      rw [List.getD_cons_succ, ← ih i (by omega)]
      ext j hj
      simp only [lineWord, BitVec.getElem_extractLsb', BitVec.getLsbD_or, BitVec.getLsbD_setWidth, BitVec.getLsbD_shiftLeft]
      have h1 : (32 * (i+1) + j) < 512 := by omega
      have h3 : 32 * (i+1) + j - 32 = 32 * i + j := by omega
      have h4 : w.getLsbD (32 * (i+1) + j) = false := BitVec.getLsbD_of_ge _ _ (by omega)
      simp [h1, h3, h4]
      omega

/-- A word of the line made of a function is the function's value. -/
theorem lineWord_fn (f : Nat → BitVec 32) (i : Nat) (h : i < 16) : lineWord (lineOfFn f) i = f i := by
  rw [lineOfFn, lineWord_words _ i h]
  simp [List.getD, h]

/-- The gain of a ramp that starts at or below unity is at most unity. -/
theorem gain_le (ramp : GainRamp) (n : Nat) (h : ramp.startGain ≤ 32768) : gainAt ramp n ≤ 32768 := by
  unfold gainAt
  have ht : targetGain ramp.target = 0 ∨ targetGain ramp.target = 32768 := by cases ramp.target <;> simp [targetGain]
  split
  · exact h
  · split
    · omega
    · rename_i h1 h2
      push Not at h2
      obtain ⟨hl, hn⟩ := h2
      have hx : (0:Int) ≤ (n : Int) - ramp.startSample := by omega
      have hy : (n : Int) - ramp.startSample ≤ ramp.length := by omega
      have hlen : (0:Int) < ramp.length := by omega
      rcases ht with ht | ht <;> rw [ht]
      · -- decreasing
        have hneg : Int.tdiv ((((0:Nat):Int) - (ramp.startGain : Int)) * ((n : Int) - ramp.startSample)) ramp.length ≤ 0 := by
          rw [show (((0:Nat):Int) - (ramp.startGain : Int)) * ((n : Int) - ramp.startSample)
                = -((ramp.startGain : Int) * ((n : Int) - ramp.startSample)) by push_cast; ring, Int.neg_tdiv]
          have := Int.tdiv_nonneg (mul_nonneg (Int.natCast_nonneg ramp.startGain) hx) hlen.le
          omega
        omega
      · have hpos : Int.tdiv ((((32768:Nat):Int) - (ramp.startGain : Int)) * ((n : Int) - ramp.startSample)) ramp.length ≤ 32768 - ramp.startGain := by
          rw [Int.tdiv_eq_ediv_of_nonneg (mul_nonneg (by push_cast; omega) hx)]
          apply Int.ediv_le_of_le_mul hlen
          push_cast
          nlinarith
        push_cast at hpos ⊢
        omega

/-- A sample under a gain of at most unity is no further from silence. -/
theorem sample_le (v : Int) (g : Nat) (h : g ≤ 32768) : (scaleSample v g).natAbs ≤ v.natAbs := by
  unfold scaleSample
  rw [Int.fdiv_eq_ediv_of_nonneg _ (by norm_num)]
  have hg : (g:Int) ≤ 32768 := by exact_mod_cast h
  have hg0 : (0:Int) ≤ g := by omega
  rcases le_total 0 v with hv | hv
  · have h1 : 0 ≤ v * g / 32768 := Int.ediv_nonneg (mul_nonneg hv hg0) (by norm_num)
    have h2 : v * g / 32768 ≤ v := Int.ediv_le_of_le_mul (by norm_num) (by nlinarith)
    omega
  · have h1 : v * g / 32768 ≤ 0 := by
      apply Int.ediv_le_of_le_mul (by norm_num); nlinarith
    have h2 : v ≤ v * g / 32768 := by
      rw [Int.le_ediv_iff_mul_le (by norm_num)]; nlinarith
    omega

/-- A clamped component lies between black and white. -/
theorem clampComponent_bounds (range : PixelRange) (v : Nat) :
    blackLevel range ≤ clampComponent range v ∧ clampComponent range v ≤ whiteLevel range := by
  have order : blackLevel range ≤ whiteLevel range := by cases range <;> decide
  unfold clampComponent
  simp only [Nat.max_def, Nat.min_def]
  repeat split
  all_goals omega

/-- A composited component lies between black and white. -/
theorem compositeComponent_bounds (range : PixelRange) (drawn : List DrawnCue) (i lo f : Nat) :
    blackLevel range ≤ compositeComponent range drawn i lo f ∧ compositeComponent range drawn i lo f ≤ whiteLevel range := by
  unfold compositeComponent
  cases drawn with
  | nil => exact clampComponent_bounds _ _
  | cons d ds =>
    rcases List.eq_nil_or_concat (d :: ds) with h | ⟨l, b, h⟩
    · simp at h
    · dsimp only
      rw [h]
      simp only [List.concat_eq_append, List.foldl_append, List.foldl_cons, List.foldl_nil]
      exact clampComponent_bounds _ _

/-- The part of a concatenation that lies above its lower half. -/
theorem extract_above {m n : Nat} (x : BitVec m) (y : BitVec n) (lo len : Nat) :
    (x ++ y).extractLsb' (n + lo) len = x.extractLsb' lo len := by
  ext j hj
  simp only [BitVec.getElem_extractLsb', BitVec.getLsbD_append]
  rw [if_neg (by omega), show n + lo + j - n = lo + j by omega]

/-- The part of a concatenation that is its lower half. -/
theorem extract_below {m n : Nat} (x : BitVec m) (y : BitVec n) : (x ++ y).extractLsb' 0 n = y := by
  ext j hj
  simp [BitVec.getLsbD_append, hj]

/-- The parts of a pixel word are what it was made of (Table 11-5). -/
theorem pixelWord_fields (unused : BitVec 2) {r g b : Nat} (hr : r < 1024) (hg : g < 1024) (hb : b < 1024) :
    wordField (pixelWord unused r g b) 20 10 = r ∧ wordField (pixelWord unused r g b) 10 10 = g ∧
      wordField (pixelWord unused r g b) 0 10 = b ∧ (pixelWord unused r g b).extractLsb' 30 2 = unused := by
  unfold wordField pixelWord
  rw [show 20 = 10 + (10 + 0) from rfl, show 30 = 10 + (10 + (10 + 0)) from rfl]
  simp only [extract_above, extract_below, BitVec.toNat_ofNat]
  refine ⟨Nat.mod_eq_of_lt hr, ?_, Nat.mod_eq_of_lt hb, ?_⟩
  · have := extract_above (unused ++ BitVec.ofNat 10 r ++ BitVec.ofNat 10 g) (BitVec.ofNat 10 b) 0 10
    rw [this, extract_below, BitVec.toNat_ofNat]; exact Nat.mod_eq_of_lt hg
  · ext j hj; simp

/-- The parts of a composited pixel word: each component composited, the unused bits the base's (R125). -/
theorem compositeWord_fields (range : PixelRange) (drawn : List DrawnCue) (base : BitVec 32) (i : Nat) :
    wordField (compositeWord range drawn base i) 20 10 = compositeComponent range drawn i 16 (wordField base 20 10) ∧
      wordField (compositeWord range drawn base i) 10 10 = compositeComponent range drawn i 8 (wordField base 10 10) ∧
      wordField (compositeWord range drawn base i) 0 10 = compositeComponent range drawn i 0 (wordField base 0 10) ∧
      (compositeWord range drawn base i).extractLsb' 30 2 = base.extractLsb' 30 2 := by
  have small (lo f : Nat) : compositeComponent range drawn i lo f < 1024 :=
    Nat.lt_of_le_of_lt (compositeComponent_bounds range drawn i lo f).2 (by cases range <;> decide)
  exact pixelWord_fields _ (small _ _) (small _ _) (small _ _)

end Sys2Proof.Machine
end

