-- ==== Sys2Proof/Tests/Slice0.lean ====
section
/-! SUPPORT. Tests/Slice0.lean: ill-formed commands refused by well-formedness, the spec's worked cases, and for each statement with
hypotheses a witness that they are met. -/

namespace Sys2Proof.Tests

set_option Elab.async false

open Sys2Proof Sys2Proof.Machine

/-! ### Small states -/

/-- The next state of an outcome. -/
def after : Host.Outcome State Fault Refusal → State
  | .next s => s
  | .fault f => nomatch f
  | .refused _ => State.reset

/-- The state after some commands. -/
def runs (cs : List Instr) (s : State) : State := cs.foldl (fun s c => after (exec c s)) s

/-- The five entries of the worked sequence of 1.9. -/
def table19 : Vector RegionEntry 24 :=
  let t : Vector RegionEntry 24 := Vector.replicate 24 {}
  let t := vput t 0 { valid := true, base := 1048576, size := 864000, kind := .pictureEssence, writers := 2#8, stride := 40 }
  let t := vput t 1 { valid := true, base := 4000000, size := 43200000, kind := .soundEssence, writers := 2#8 }
  let t := vput t 2
    { valid := true, base := 50000000, size := 561600, kind := .frame, writers := 4#8, width := 4096, height := 2160,
      pitch := 260, range := .limited, isProtected := true }
  let t := vput t 3
    { valid := true, base := 51000000, size := 32768, kind := .plane, writers := 1#8, width := 2048, height := 256,
      pitch := 128 }
  vput t 4 { valid := true, base := 51100000, size := 64, kind := .cue, writers := 1#8 }

/-- A record of one reel over that table. -/
def record19 : ShowRecord :=
  { compositionId := 7#64, licenceSlot := 0, editRate := .r24, sampleRate := .hz48000, channels := 2, sync := .projector,
    lead := 48, trail := 2,
    reels := [{ duration := 21600, pictureRegion := 0, soundRegion := 1, pictureKey := 4, soundKey := 5 }] }

/-- Key fields that hold from 0 to 1000. -/
def fields (kind : EssenceKind) : KeyFields :=
  { kind := kind, keyId := 1#64, nonce := 2#64, notBefore := 0, notAfter := 1000 }

/-- A licence for that record. -/
def licence7 : Licence :=
  { licenceId := 5#32, compositionId := 7#64, granted := 3, remaining := 3, used := 0, notBefore := 0, notAfter := 1000,
    permille := 500, screenId := 9#16 }

/-- A part with the table, keys, a licence and secure time. -/
def part : State :=
  { State.reset with
    path := { State.reset.path with regions := table19 }
    keys := vput (vput State.reset.keys 4 (.loaded (fields .picture) 3#128)) 5 (.loaded (fields .sound) 4#128)
    secure := { valid := true, time := 10 }
    count := { State.reset.count with
      ram := { licences := vput (Vector.replicate 8 .empty) 0 (.active licence7), screenId := 9#16 }
      store := { licences := vput (Vector.replicate 8 .empty) 0 (.active licence7), screenId := 9#16 } } }

/-- The record loaded. -/
def loaded : State := { part with ctl := { State.reset.ctl with state := .loaded, record := some record19 } }

/-- The show primed by PRIME. -/
def primed : State := runs [.prime] loaded

/-- The show running: START, and the anchor edge. -/
def running : State := runs [.start, .fsyncInEdge] primed

/-- The show running with sync source INTERNAL. -/
def runningInternal : State :=
  runs [.start] { primed with ctl := { primed.ctl with record := some { record19 with sync := .internal } } }

/-- A state with the microsecond over and the timebase moved on. -/
def later (us : Nat) (s : State) : State :=
  { s with clock := { s.clock with timebase := s.clock.timebase + BitVec.ofNat 48 us, edgeSeen := false } }

/-- A cue drawn from plane region 3. -/
def cueOf (n inUnit outUnit : Nat) : Cue :=
  { number := n, track := 0#16, forced := false, inUnit := inUnit, outUnit := outUnit, fadeUp := 0, fadeDown := 0,
    x0 := 1024, y0 := 1900, w := 2048, h := 200, plane := 3, px := 0, py := 0 }

/-- The state with lane A's active cue. -/
def withActive (c : Cue) (s : State) : State :=
  { s with cues := { s.cues with laneA := { s.cues.laneA with active := some { cue := c, update := none } } } }

/-- The byte address of a line. -/
def lineAddr (line : Nat) : BitVec 40 := BitVec.ofNat 40 (64 * line)

/-- A read of a line made at a state. -/
def readOf (line : Nat) (who : Originator) (s : State) : State := runs [.lineRead (lineAddr line) who] s

/-- A write of a line made at a state. -/
def writeOf (line : Nat) (data : Line) (enables : BitVec 64) (s : State) : State :=
  runs [.lineWrite (lineAddr line) .proc data enables] s

/-- The line of a cue record, its bytes below the CRC byte given, with that CRC byte. -/
def sealedCue (l : Line) : Line := l ||| ((crc8 (lineBytes l 63)).setWidth 512 <<< 504)

/-- A whole cue line: format 1, number 77, in unit 5, out unit 9, plane 3. -/
def cueLine : Line :=
  sealedCue (1#512 ||| (77#512 <<< 32) ||| (5#512 <<< 64) ||| (9#512 <<< 88) ||| (3#512 <<< 192))

/-! ### Well-formedness refuses ill-formed commands -/

/-- A reel entry. -/
def aReel : ReelWrite := { duration := 1#24, pictureRegion := 0#8, soundRegion := 1#8, pictureKey := 4#8, soundKey := 5#8 }

/-- A SHOW record with a number of reels. -/
def showOf (n : Nat) : ShowWrite :=
  { compositionId := 7#64, licenceSlot := 0#8, editRate := 0#8, sampleRate := 0#8, channels := 2#8, sync := 0#8, lead := 0#8,
    trail := 255#8, reels := List.replicate n aReel }

theorem test_wellFormed_show : (Instr.loadShow (showOf 29)).wellFormed = true ∧ (Instr.loadShow (showOf 30)).wellFormed = false := by
  decide

theorem test_wellFormed_read :
    (Instr.readRecord .region 23#8).wellFormed = true ∧ (Instr.readRecord .region 24#8).wellFormed = false := by decide

/-- HOLD to the part at address 88, with its CRC byte. -/
def holdPacket : List Byte := [176#8, 3#8, 4#8, 0#8, 0#8] ++ [crc8 [176#8, 3#8, 4#8, 0#8, 0#8]]

theorem test_wellFormed_packets :
    (Instr.badCrc [176#8, 3#8, 4#8, 0#8, 0#8, 0#8]).wellFormed = true ∧ (Instr.badCrc holdPacket).wellFormed = false ∧
      (Instr.badLengthTruncated (holdPacket.take 5)).wellFormed = true ∧
      (Instr.badLengthTruncated holdPacket).wellFormed = false ∧ (Instr.badLengthTruncated []).wellFormed = false := by decide +kernel

/-- A transfer cut off has at most the bytes of a packet of 255 data bytes. -/
theorem test_wellFormed_boothReset :
    (Instr.boothReset (some 261)).wellFormed = true ∧ (Instr.boothReset (some 262)).wellFormed = false ∧
      (Instr.boothReset).wellFormed = true := by decide

theorem test_wellFormed_unrecognised :
    (Instr.unrecognisedPacket 9#8 0#8 0#8 []).wellFormed = true ∧
      (Instr.unrecognisedPacket 3#8 4#8 0#8 []).wellFormed = false := by decide

/-! ### Worked cases of the spec -/

/-- 2.2: the offsets at 24/1 and 24000/1001. -/
theorem test_unit_offsets :
    unitOffset .r24000over1001 3 = 125125 ∧ unitOffset .r24 1 = 41666 ∧ unitOffset .r24 2 = 83333 ∧ unitOffset .r24 3 = 125000 := by
  decide

/-- 6.5: the gains of HOLD and RESUME. -/
theorem test_gain_worked_case :
    let hold : GainRamp := { startSample := 43401200, startGain := 32768, target := .silence, length := 960 }
    let resume : GainRamp := { startSample := 43401501, startGain := 22494, target := .unity, length := 960 }
    gainAt hold 43401501 = 22494 ∧ gainAt hold 43401300 = 29355 ∧ gainAt resume 43401300 = 22494 ∧
      gainAt resume 43401981 = 27631 := by decide

/-- 8.8: the blends. -/
theorem test_blend_worked_case :
    clampComponent .full (blendComponent (cueColour .full 255) (200 * 128 / 256) 400) = 644 ∧
      clampComponent .limited (blendComponent (cueColour .limited 255) 100 500) = 673 ∧
      clampComponent .limited (blendComponent (cueColour .limited 0) 50 673) = 554 := by decide

/-- R101 and R157: the CRC-8, with the polynomial 7, of the digits 1 to 9. -/
theorem test_crc8 : crc8 [49#8, 50#8, 51#8, 52#8, 53#8, 54#8, 55#8, 56#8, 57#8] = 244#8 := by decide +kernel

/-- R78: the CRC-32 of the digits 1 to 9, and of no bytes. -/
theorem test_crc32 :
    crc32Finish (crc32Fold crc32Start [49#8, 50#8, 51#8, 52#8, 53#8, 54#8, 55#8, 56#8, 57#8]) = 3421780262#32 ∧
      crc32Finish crc32Start = 0#32 := by decide +kernel

/-- R157, R158: packets read from their bytes. -/
theorem test_packets_decode :
    decodePacket 0#2 holdPacket = .request .hold ∧ decodePacket 0#2 (holdPacket.take 5) = .truncated ∧
      decodePacket 0#2 [176#8, 3#8, 4#8, 0#8, 0#8, 0#8] = .badCrc ∧
      decodePacket 0#2 ([176#8, 3#8, 8#8, 0#8, 2#8, 1#8, 2#8] ++ [crc8 [176#8, 3#8, 8#8, 0#8, 2#8, 1#8, 2#8]]) =
        .request (.clearFaults 258#16) ∧
      decodePacket 0#2 ([176#8, 1#8, 7#8, 0#8, 0#8] ++ [crc8 [176#8, 1#8, 7#8, 0#8, 0#8]]) = .refused .badTable := by
  decide +kernel

/-- R157: a transfer to another part, or with bit 0 set, is ignored whatever follows. -/
theorem test_other_addresses_ignored :
    decodePacket 1#2 holdPacket = .ignored ∧ decodePacket 0#2 (177#8 :: holdPacket.tail) = .ignored ∧
      (encodePacket 3#2 .hold).map (decodePacket 3#2) = some (.request .hold) := by decide +kernel

/-- One request of every form the link carries, with operands that differ bit by bit. -/
def linkForms : List Instr :=
  [.regionRecord 23 ⟨true, 4#8, 165#8, 9#8, 0x123456789A#40, 0x89ABCDEF#32, 0x1234#16, 0x5678#16, 0x9ABC#16, 0xDEF0#16, true, false⟩,
   .loadKey 15 (BitVec.ofNat 384 (7 ^ 130)) 0x12345678#32, .loadLicence 7 (BitVec.ofNat 384 (11 ^ 110)) 0x9ABCDEF0#32,
   .loadShow ⟨0x0123456789ABCDEF#64, 0xA1#8, 0xB2#8, 0xC3#8, 0xD4#8, 0xE5#8, 0xF6#8, 0x17#8,
     [⟨0x123456#24, 0x78#8, 0x9A#8, 0xBC#8, 0xDE#8⟩, ⟨0xFEDCBA#24, 0x98#8, 0x76#8, 0x54#8, 0x32#8⟩]⟩,
   .writeFilter 5 ⟨true, 2#8, 0x1234#16, 0xF0E1#16⟩, .writeDefaultAction 2#8, .writeLowMark .a 7#8,
   .writeLowMark .b 9#8, .writePolicy .soundStarved ⟨3#8, 17#8, true, 9#8, 0x34#8, 0x12#8⟩, .writeEvents 0xA5#8 0x5A#8,
   .writeClock 0x1234#16 77#8, .prime, .primePreview, .start, .hold, .resume, .stop, .unload, .clearFaults 0x1A5#16, .tickle,
   .setMute 0xA53C#16, .laneEnable 2#8, .purgeKey 14, .deleteLicence 6, .popLog 0x0123456789ABCDEF#64, .setTime 0xFEDCBA98#32,
   .trimTime 0xFFF6#16, .setScreen 0x4321#16, .ackEvents 0x81#8, .reset, .readRecord .log 63#8, .readRecord .status 0#8]

/-- A POLICY record of every kind. -/
def policyForms : List Instr := allKinds.map fun k => .writePolicy k ⟨0xA5#8, 0x5A#8, true, 0x12#8, 0x34#8, 0x56#8⟩

/-- R158, R165: each of them, written as a packet, reads back as itself. -/
theorem test_link_forms_read_back :
    linkForms.all (fun c => c.wellFormed && (encodePacket 2#2 c).map (decodePacket 2#2) == some (.request c)) = true := by
  decide +kernel

theorem test_policy_forms_read_back :
    policyForms.all (fun c => c.wellFormed && (encodePacket 2#2 c).map (decodePacket 2#2) == some (.request c)) = true := by
  decide +kernel

/-- 1.9: the six transactions of the worked sequence. -/
theorem test_worked_sequence :
    let s2 := readOf 1048589 .decode (readOf 1048589 .proc loaded)
    let s3 := runs [.lineWrite (lineAddr 50000010) .aux0 0#512 0#64] s2
    let s4 := readOf 50000300 .proc s3
    let s5 := readOf 50000258 .proc s4
    let s6 := writeOf 51100003 0#512 (BitVec.allOnes 64) s5
    s2.path.rawPicture = 1 ∧ s3.out.up = [.writeError 2] ∧
      s3.path.access = some { cause := .writeRefused, who := .aux0, region := some 2, line := 50000010, further := 0 } ∧
      s4.path.access.map (·.further) = some 1 ∧ s4.out.down = [] ∧
      s5.out.down = [.read 4 50000258 .proc] ∧ s5.path.access = s4.path.access ∧
      s6.path.writes.map (·.binding.offset) = [3] := by decide +kernel

/-- 8.7: the side read of the worked sequence. -/
theorem test_side_read_named :
    (readOf 50520100 .scan (withActive (cueOf 1 0 30000) running)).out.down =
      [.read 0 50520100 .scan, .sideRead 0 .a 51012836] := by decide +kernel

/-! ### The hypotheses of the statements are met -/

theorem witness_IdleStepCountsOneMicrosecond :
    State.reset.pending = [] ∧ State.reset.power.on = true ∧
      (runs [.lossOfPower false] running).pending = [] ∧ (runs [.lossOfPower false] running).power.on = false := by decide +kernel

/-- Each deadline at its first instant and one microsecond before it. -/
theorem witness_deadlines :
    let awaiting := runs [.start] primed
    let armed := runs [.writePolicy .watchdog ⟨3#8, 24#8, true, 1#8, 1#8, 0#8⟩] part
    timeBefore 281474976710655#48 0#48 = true ∧ timeBefore 0#48 281474976710655#48 = false ∧
      dueExpiries (later 42667 running) = [.windowExpiry] ∧ dueExpiries (later 42666 running) = [] ∧
      dueExpiries (later 41666 runningInternal) = [.internalExpiry] ∧ dueExpiries (later 41665 runningInternal) = [] ∧
      dueExpiries (later 166664 awaiting) = [.anchorTimeout] ∧ dueExpiries (later 166663 awaiting) = [] ∧
      dueExpiries (later 1000000 armed) = [.watchdogExpiry] ∧ dueExpiries (later 999999 armed) = [] := by decide +kernel

/-- Each row of Table 1-1 has an address under the table of 1.9. -/
theorem witness_ReadRoutesFollowTheTable :
    (classify part 5).kind = .openMemory ∧ (classify part 51000000).kind = .plane ∧ (classify part 51100000).kind = .cue ∧
      (classify part 1048576).kind = .pictureEssence ∧ (classify part 47199999).kind = .soundEssence ∧
      isPadding (classify part 50000256) = true ∧ isPadding (classify part 50000255) = false ∧
      (classify part 50000255).isProtected = true ∧ (classify part 50000255).kind = .frame ∧
      (classify part 47200000).kind = .openMemory := by decide +kernel

/-- What is named: the last row and group of the plane, one row further, no plane entry, a disabled lane, a forced cue. -/
theorem witness_naming :
    let b := classify running 50520100
    let named (c : Cue) (s : State) := (nameLane (withActive c s) b .a).map fun n => (n.side.status, n.sent)
    let c := cueOf 1 0 30000
    let off := { running with overlay := { running.overlay with enableA := false } }
    (b.offset / b.pitch, b.offset % b.pitch) = (2000, 100) ∧ named c running = some (.awaited, some 51012836) ∧
      named { c with py := 155, px := 1456 } running = some (.awaited, some (51000000 + 255 * 128 + 127)) ∧
      named { c with py := 156 } running = none ∧ named { c with px := 1472 } running = none ∧
      named { c with plane := 4 } running = some (.failed, none) ∧ named { c with h := 100 } running = none ∧
      named { c with h := 101 } running = some (.awaited, some 51012836) ∧ named c off = none ∧
      named { c with forced := true } off = some (.awaited, some 51012836) := by decide +kernel

/-- A lawful table: a line of one entry at its first and last line, one of no entry, and any line with BRST_N low. -/
theorem witness_classify :
    let low := runs [.boothReset] { part with power := { part.power with brstLow := true } }
    (classify part 1048576).entry = some 0 ∧ (classify part 1048576).offset = 0 ∧ (classify part 1912575).offset = 863999 ∧
      (classify part 1912575).stride = 40 ∧ (classify part 1912576).entry = none ∧ (classify part 1912576).writers = 255#8 ∧
      low.path.regions = part.path.regions ∧ low.power.brstLow = true ∧ (classify low 1048576).entry = none ∧
      (part.path.regions[0].valid = true ∧ ∀ j : Fin 24, entryMatches part.path.regions[j] 1048576 = true → j = 0) := by
  decide +kernel

/-- Padding starts at the width within a row and at the row below the last. -/
theorem witness_padding :
    isPadding (classify part 50000000) = false ∧ isPadding (classify part 50000255) = false ∧
      isPadding (classify part 50000256) = true ∧ isPadding (classify part 50000259) = true ∧
      isPadding (classify part 50000260) = false ∧ isPadding (classify part (50000000 + 2159 * 260 + 255)) = false ∧
      isPadding (classify part (50000000 + 2159 * 260 + 256)) = true := by decide +kernel

theorem witness_LineReadIsForwarded :
    part.power.on = true ∧ readRoute (classify part 5) .proc = some .plain ∧
      readRoute (classify part 1048576) .proc = some .raw ∧ readRoute (classify part 1048576) .decode = some .picture ∧
      readRoute (classify part 4000000) .proc = some .raw ∧ readRoute (classify part 4000000) .audio = some .sound ∧
      readRoute (classify part 50000000) .scan = some .display := by decide +kernel

/-- ACCESS under IGNORE. -/
def accessIgnored : State := runs [.writePolicy .access ⟨0#8, 24#8, false, 0#8, 0#8, 0#8⟩] part

theorem witness_RefusedAccessIsRaised :
    part.power.on = true ∧ readRoute (classify part 50000000) .proc = none ∧
      mayWrite (classify part 50000000) .proc = false ∧ (policyOfKind part .access).policy = .report ∧
      accessIgnored.power.on = true ∧ readRoute (classify accessIgnored 50000000) .proc = none ∧
      mayWrite (classify accessIgnored 50000000) .proc = false ∧ (policyOfKind accessIgnored .access).policy = .ignore := by
  decide +kernel

theorem witness_LineWriteIsForwarded :
    part.power.on = true ∧ (∀ i : Fin 24, entryMatches part.path.regions[i] 17179869183 = false) ∧
      mayWrite (classify part 51100000) .proc = true := by decide +kernel

theorem witness_MemoryAnswersGoUpstream :
    let plain := readOf 5 .proc running
    let raw := readOf 1048576 .proc running
    let picture := readOf 1048576 .decode running
    let tracked := { picture with unpack := { picture.unpack with context0 := some ⟨0, 64, 0#32, 1, crc32Start, true⟩ } }
    plain.power.on = true ∧ (awaitedRead plain 0).map (·.route) = some .plain ∧
      (awaitedRead raw 0).map (·.route) = some .raw ∧ (awaitedRead picture 0).map (·.route) = some .picture ∧
      (awaitedRead picture 0).bind (fun r => (mapPicture picture r.binding).map (·.unit)) = some 0 ∧
      trackedBy picture.unpack 0 = none ∧ trackedBy tracked.unpack 0 = some false := by decide +kernel

/-- Picture reads that the gate opens, and that it withholds for each reason. -/
theorem witness_PictureReadReturns :
    let s := readOf 1048576 .decode running
    let far := readOf (1048576 + 40 * 49) .decode running
    let none' := readOf 1048576 .decode part
    (awaitedRead s 0).map (fun r => (r.route, gate .picture s r.binding)) =
        some (.picture, .opened ⟨0, 0, 0, 0, 0⟩ 2#64 3#128) ∧
      (awaitedRead far 0).map (fun r => (r.route, gate .picture far r.binding)) = some (.picture, .withheld .window) ∧
      (awaitedRead none' 0).map (fun r => (r.route, gate .picture none' r.binding)) = some (.picture, .withheld .state) := by
  decide +kernel

/-- The gate's four tests in order, the window's two bounds, a key slot LAPSED in grace and not, and where a picture line maps. -/
theorem witness_gate :
    let at100 := { running with ctl := { running.ctl with position := 100 } }
    let line (u : Nat) : Binding := classify at100 (1048576 + 40 * u + 7)
    let lapsed (grace : Nat) := { at100 with keys := vput at100.keys 4 (.lapsed (fields .picture) 3#128 grace) }
    let expired := { at100 with keys := vput at100.keys 4 (.expired (fields .picture)) }
    gate .picture at100 (line 97) = .withheld .window ∧ gate .picture at100 (line 98) = .opened ⟨0, 98, 98, 7, 0⟩ 2#64 3#128 ∧
      gate .picture at100 (line 148) = .opened ⟨0, 148, 148, 7, 0⟩ 2#64 3#128 ∧
      gate .picture at100 (line 149) = .withheld .window ∧ gate .picture expired (line 100) = .withheld .key ∧
      gate .picture expired (line 149) = .withheld .window ∧
      gate .picture (lapsed 0) (line 100) = .opened ⟨0, 100, 100, 7, 0⟩ 2#64 3#128 ∧
      gate .picture (lapsed 1) (line 100) = .withheld .key ∧ gate .picture part (line 149) = .withheld .state ∧
      gate .picture at100 { line 100 with reel := 1 } = .withheld .outsideReel ∧
      (mapPicture at100 (line 21599)).map (·.unit) = some 21599 ∧
      mapPicture at100 { line 0 with offset := 21600 * 40 } = none ∧ mapPicture at100 { line 0 with entry := some 1 } = none ∧
      mapPicture part (line 0) = none ∧
      (mapSound at100 (classify at100 (4000000 + 2000 * 3 + 5))).map (fun p => (p.unit, p.within, p.sample)) =
        some (3, 3, 6005) := by decide +kernel

/-- The counter block of a line: nonce, line offset and block number; a frontier raised from none, from less and from more. -/
theorem witness_keystream :
    let counter (b : Nat) := counterBlock 0x0102030405060708#64 0x0A0B0C0D b
    (counter 3).extractLsb' 0 8 = 1#8 ∧ (counter 3).extractLsb' 56 8 = 8#8 ∧ (counter 3).extractLsb' 64 8 = 0x0A#8 ∧
      (counter 3).extractLsb' 88 8 = 0x0D#8 ∧ (counter 3).extractLsb' 96 8 = 0#8 ∧ (counter 3).extractLsb' 120 8 = 3#8 ∧
      raiseFrontier none 5 = some 5 ∧ raiseFrontier (some 4) 5 = some 5 ∧ raiseFrontier (some 5) 5 = some 5 ∧
      raiseFrontier (some 6) 5 = some 6 := by decide +kernel

/-- Any opened line comes from some line, whatever the keystream. -/
theorem witness_opened_line (target ks : Line) : ∃ line : Line, line ^^^ ks = target :=
  ⟨target ^^^ ks, by rw [BitVec.xor_assoc, BitVec.xor_self, BitVec.xor_zero]⟩

/-- A header line: unit, payload length, CRC. -/
def header (unit length crc : Nat) : Line :=
  BitVec.ofNat 512 unit ||| (BitVec.ofNat 512 length <<< 32) ||| (BitVec.ofNat 512 crc <<< 64)

/-- Every kind of opened header, and a read of the header line and of a payload line that are opened, in a state with and
without contexts. -/
theorem witness_PictureUnitsAreChecked :
    let s := readOf 1048576 .decode running
    let pay := readOf 1048577 .decode running
    ((awaitedRead s 0).map fun r => (r.route, r.binding.stride, gate .picture s r.binding)) =
        some (.picture, 40, .opened ⟨0, 0, 0, 0, 0⟩ 2#64 3#128) ∧
      ((awaitedRead pay 0).map fun r => (r.route, gate .picture pay r.binding)) =
        some (.picture, .opened ⟨0, 0, 0, 1, 0⟩ 2#64 3#128) ∧
      headerUnit (header 1 64 0) = 1 ∧ headerLength (header 0 2497 0) = 2497 ∧ headerLength (header 0 2496 0) = (40 - 1) * 64 ∧
      headerCrc (header 0 0 5) = 5#32 ∧ headerCrc (header 0 0 0) = 0#32 ∧ payloadLines 64 = 1 ∧ payloadLines 65 = 2 := by
  decide +kernel

/-- The payload of lengths at and around whole lines, its last line, and a line folded. -/
theorem witness_payload :
    payloadLines 1 = 1 ∧ payloadLines 64 = 1 ∧ payloadLines 65 = 2 ∧ payloadLines 128 = 2 ∧ payloadBytes 65 1 = 64 ∧
      payloadBytes 65 2 = 1 ∧ payloadBytes 128 2 = 64 ∧
      foldLine ⟨0, 65, 0#32, 2, crc32Start, true⟩ 97#512 ^^^ BitVec.allOnes 32 = 3904355907#32 := by decide +kernel

/-- Sound words at both ends of the samples, and the low byte that is no part of one. -/
theorem witness_sound_words :
    soundSample 0x7FFFFFFF#32 = 8388607 ∧ soundSample 0x80000000#32 = -8388608 ∧ soundSample 0xFFFFFF80#32 = -1 ∧
      soundWord 8388607 = 0x7FFFFF00#32 ∧ soundWord (-8388608) = 0x80000000#32 ∧ running.ctl.record = some record19 ∧
      channelCount running = 2 := by decide +kernel

/-- R91's three rows, where they meet, and a ramp of no length. -/
theorem witness_gain_rows :
    let r : GainRamp := { startSample := 100, startGain := 32768, target := .silence, length := 960 }
    gainAt r 99 = 32768 ∧ gainAt r 100 = 32768 ∧ gainAt r 101 = 32734 ∧ gainAt r 1059 = 35 ∧ gainAt r 1060 = 0 ∧
      gainAt { r with length := 0 } 99 = 32768 ∧ gainAt { r with length := 0 } 100 = 0 ∧
      gainAt { r with startGain := 0, target := .unity } 1059 = 32733 ∧
      gainAt { r with startGain := 0, target := .unity } 1060 = 32768 := by decide

theorem witness_ContextsOk : ContextsOk running ∧
    ContextsOk { running with unpack := { running.unpack with
      context0 := some ⟨0, 65, 0#32, 1, crc32Start, true⟩, context1 := some ⟨1, 65, 0#32, 2, crc32Start, false⟩ } } := by
  refine ⟨⟨?_, ?_, ?_⟩, ?_, ?_, ?_⟩
  · intro c h; revert h; exact nofun
  · intro c h; revert h; exact nofun
  · intro c d h; revert h; exact nofun
  · intro c h; cases h; exact ⟨by decide, by decide⟩
  · intro c h; cases h; exact ⟨by decide, by decide⟩
  · intro c d hc hd; cases hc; cases hd; exact ⟨by decide, by decide⟩

theorem witness_SoundReadReturns :
    let s := readOf 4000001 .audio running
    let off := readOf 4000001 .audio part
    s.power.on = true ∧ (awaitedRead s 0).map (fun r => (r.route, gate .sound s r.binding)) =
        some (.sound, .opened ⟨0, 0, 0, 0, 1⟩ 2#64 4#128) ∧
      (awaitedRead off 0).map (fun r => (r.route, gate .sound off r.binding)) = some (.sound, .withheld .state) ∧
      running.sound.ramp.startGain ≤ 32768 := by decide +kernel

/-- A display read with its side read awaited, and one that awaits nothing; shown, preview, and neither. -/
theorem witness_DisplayReadReturns :
    let drawn := readOf 50520100 .scan (withActive (cueOf 1 0 30000) running)
    let plain := readOf 50520100 .scan running
    let preview := runs [.primePreview] loaded
    (awaitedRead drawn 0).map (fun r => (r.route, readComplete { r with frame := some 0#512 })) = some (.display, false) ∧
      (awaitedRead plain 0).map (fun r => (r.route, readComplete { r with frame := some 0#512 })) = some (.display, true) ∧
      pictureShown running = true ∧ (pictureShown preview = false ∧ previewDisplay preview = true) ∧
      pictureShown loaded = false ∧ previewDisplay loaded = false := by decide +kernel

/-- A draw entry that matches, one that does not, one that failed; the fade at both ends of a cue's units. -/
theorem witness_drawn_cues :
    let s := withActive (cueOf 1 0 30000) running
    let e := drawEntryOf .a (cueOf 1 0 30000)
    drawnFor s ⟨e, .data 5#512⟩ = some ⟨256, 5#512⟩ ∧ drawnFor s ⟨{ e with px := 16 }, .data 5#512⟩ = none ∧
      sideUnmatched s ⟨{ e with px := 16 }, .data 5#512⟩ = true ∧ sideFailed ⟨e, .failed⟩ = true ∧
      sideUnmatched running ⟨e, .data 5#512⟩ = true ∧ fadeLevel 5 6 0 0 5 = 256 ∧ fadeLevel 5 6 255 255 5 = 1 ∧
      fadeLevel 0 100 10 0 9 = 256 ∧ fadeLevel 0 100 10 0 8 = 230 := by decide +kernel

theorem witness_SideReadReturns :
    let drawn := readOf 50520100 .scan (withActive (cueOf 1 0 30000) running)
    let framed := runs [.readReturn 0 (.data 0#512)] drawn
    let done (r : ReadInFlight) : Bool := readComplete { r with sides := r.sides.map (answerSide .a .error) }
    (awaitedSide drawn 0 .a).map (fun r => (r.frame, done r)) = some (none, false) ∧
      (awaitedSide framed 0 .a).map (fun r => (r.frame, done r)) = some (some 0#512, true) := by decide +kernel

/-- A side read's answer joined by lane; a side answer that no side read awaits, the display read having ended in an error. -/
theorem witness_side_answers :
    let drawn := readOf 50520100 .scan (withActive (cueOf 1 0 30000) running)
    let ended := runs [.readReturn 0 .error] drawn
    let side (status : SideStatus) : SideRead := ⟨drawEntryOf .a (cueOf 1 0 30000), status⟩
    answerSide .a (.data 5#512) (side .awaited) = side (.data 5#512) ∧ answerSide .a .error (side .awaited) = side .failed ∧
      answerSide .b .error (side .awaited) = side .awaited ∧ answerSide .a .error (side (.data 5#512)) = side (.data 5#512) ∧
      (awaitedSide drawn 0 .b).isNone = true ∧ ended.power.on = true ∧ (awaitedSide ended 0 .a).isNone = true ∧
      (runs [.sideReadReturn 0 .a (.data 5#512)] ended).path.reads = ended.path.reads := by decide +kernel

/-- Cue lines of every fate. -/
theorem witness_WriteCompletes :
    let all := BitVec.allOnes 64
    let s := writeOf 51100000 cueLine all running
    let rejecting := runs [.writeDefaultAction 2#8] s
    let toB := runs [.writeDefaultAction 1#8] s
    let full := { s with cues := { s.cues with laneA := { s.cues.laneA with queue := List.replicate 16 (cueOf 1 50 60) } } }
    (awaitedWrite s 0).map (fun w => (w.binding.kind, w.enables)) = some (.cue, all) ∧
      (awaitedWrite (writeOf 5 0#512 all running) 0).map (·.binding.kind) = some .openMemory ∧
      (awaitedWrite (writeOf 51100000 cueLine 1#64 running) 0).map (·.enables) = some 1#64 ∧
      wellFormedCue s 0#512 = none ∧
      (wellFormedCue s cueLine).map (fun c => (c.number, c.inUnit, c.outUnit)) = some (77, 5, 9) ∧
      filterActionFor rejecting.cues 0#16 = .reject ∧ filterActionFor s.cues 0#16 = .laneA ∧
      filterActionFor toB.cues 0#16 = .laneB ∧ s.ctl.state = .running ∧
      (writeOf 51100000 cueLine all part).ctl.state = .empty ∧
      (laneArrive true 0 (cueOf 77 5 9) s.cues.laneA).2 = false ∧ (laneArrive true 0 (cueOf 77 5 9) full.cues.laneA).2 = true := by
  decide +kernel

/-- What makes a line a cue: the clamped fields, a plane that a booth reset has taken away a microsecond ago; the filter that decides. -/
theorem witness_cue_line_fields :
    let wide := sealedCue (1#512 ||| (1#512 <<< 8) ||| (77#512 <<< 32) ||| (5#512 <<< 64) ||| (9#512 <<< 88) |||
      (31#512 <<< 128) ||| (17#512 <<< 160) ||| (3#512 <<< 192) ||| (15#512 <<< 208))
    let two : Filter := { enabled := true, matchValue := 0x12#16, mask := 0xF0#16, action := .laneB }
    let x : CueIntake :=
      { filters := vput (vput (Vector.replicate 8 {}) 2 two) 5 { enabled := true, action := .reject } }
    (wellFormedCue part wide).map (fun c => (c.forced, c.x0, c.w, c.px, c.plane)) = some (true, 16, 32, 0, 3) ∧
      wellFormedCue part (sealedCue (2#512 ||| (9#512 <<< 88) ||| (3#512 <<< 192))) = none ∧
      wellFormedCue part (sealedCue (1#512 ||| (9#512 <<< 64) ||| (9#512 <<< 88) ||| (3#512 <<< 192))) = none ∧
      wellFormedCue part (sealedCue (1#512 ||| (9#512 <<< 88) ||| (4#512 <<< 192))) = none ∧
      wellFormedCue (countMicrosecond (runs [.boothReset] part)) wide = none ∧
      filterActionFor x 0x1F#16 = .laneB ∧ filterActionFor x 0x2F#16 = .reject ∧ filterActionFor part.cues 7#16 = .laneA := by
  decide +kernel

/-- R115's last row: after a booth reset of the same microsecond a line that names a plane of before passes by the free value, and is
then ignored; one that names another entry fails; the mark goes with the microsecond and with a record at its index (log 29). -/
theorem witness_booth_reset_and_intake :
    let s := runs [.boothReset] part
    s.path.planesLost = [3] ∧ s.ctl.state = .empty ∧ s.path.writes = part.path.writes ∧
      (runs [.brstNRelease, .reset] s).path.planesLost = [3] ∧
      (runs [.brstNRelease, .regionRecord 3 ⟨false, 0#8, 0#8, 0#8, 0#40, 0#32, 0#16, 0#16, 0#16, 0#16, false, false⟩] s).path.planesLost = [] ∧ (countMicrosecond s).path.planesLost = [] ∧
      wellFormedCue s (sealedCue (1#512 ||| (9#512 <<< 88) ||| (4#512 <<< 192))) = none ∧
      (cueFiltered (cueOf 77 5 9) s).cues.counts.ignored = 1 := by decide +kernel

theorem witness_booth_reset_free_value :
    let s := runs [.boothReset] part
    wellFormedCue s cueLine = if Config.checkBeforeReset s.free then some (cueOfLine cueLine 3) else none := by
  intro s
  unfold wellFormedCue planeKeptByTie
  rw [if_pos (by decide +kernel), show cuePlaneOf cueLine = some 3 by decide +kernel]
  dsimp only
  rw [show planeReady s 3 = false by decide +kernel,
    show s.path.planesLost.contains 3 = true by decide +kernel, show (s.ctl.state == .empty) = true by decide +kernel]
  rfl

/-- Two ramps of length 0 at one sample: the second starts from the target of the first (log 33). -/
theorem witness_second_ramp_of_no_length :
    let first : GainRamp := { startSample := 100, startGain := 32768, target := .silence, length := 0 }
    let s := { running with sound := { running.sound with frontier := some 99, ramp := first, rampLength := 0 } }
    (startRamp first .unity s).sound.ramp = { startSample := 100, startGain := 0, target := .unity, length := 0 } := by
  decide +kernel

/-- Activation: an update that retires, due cues skipped, cut and made active, and the low mark met and not met; a cue of in unit p
is due at p; one of in unit T at the final advance not within the bound T, and within T + 1 made active (R102, R109, log 28). -/
theorem witness_activation :
    let act : ActiveCue := ⟨cueOf 1 0 90, some ⟨10, 0⟩⟩
    let x : Lane := { active := some act, queue := [cueOf 2 5 10, cueOf 3 8 12, cueOf 4 10 14, cueOf 5 11 15], lowMark := 1 }
    let y := laneActivate 10 99 x
    y.active = some ⟨cueOf 4 10 14, none⟩ ∧ y.queue = [cueOf 5 11 15] ∧
      y.counts = { retired := 1, skipped := 1, cut := 1 } ∧ laneLow 10 99 x = true ∧
      laneLow 10 99 { x with lowMark := 0 } = false ∧
      (laneActivate 10 99 { x with active := some { act with update := none } }).counts = { skipped := 1, cut := 2 } ∧
      (laneActivate 4 99 x).active = some ⟨{ act.cue with outUnit := 10 }, none⟩ ∧ laneLow 4 99 x = false ∧
      (laneActivate 10 10 x).queue = [cueOf 4 10 14, cueOf 5 11 15] ∧ (laneActivate 10 10 x).active = some ⟨cueOf 3 8 12, none⟩ ∧
      (laneActivate 11 11 { x with queue := [cueOf 5 11 15] }).queue = [cueOf 5 11 15] ∧
      (laneActivate 11 12 { x with queue := [cueOf 5 11 15] }).active = some ⟨cueOf 5 11 15, none⟩ := by decide +kernel

/-- A lane for each case of an arrival. -/
theorem witness_CueArrivesByCase :
    let c := cueOf 1 5 9
    let x (a : Option ActiveCue) (q : List Cue) : Lane := { active := a, queue := q }
    (laneArrive true 0 c (x (some ⟨c, none⟩) [])).1.counts.updated = 1 ∧
      (laneArrive true 9 c (x none [c])).1.counts.replaced = 1 ∧ (laneArrive true 9 c (x none [])).1.counts.late = 1 ∧
      (laneArrive false 9 c (x none [])).1.counts.inserted = 1 ∧ (laneArrive true 8 c (x none [])).1.counts.inserted = 1 ∧
      (laneArrive true 8 c (x none (List.replicate 16 (cueOf 2 5 9)))).2 = true ∧
      (laneArrive true 8 c (x none (List.replicate 15 (cueOf 2 5 9)))).1.queue.length = 16 := by decide +kernel

/-- A glitch one microsecond before the window, and at its first instant none. -/
theorem witness_EdgeWithoutAdvance :
    running.clock.substate = .tracking ∧ isInternal running = false ∧ (later 40665 running).clock.edgeSeen = false ∧
      (let s := later 40665 running
       timeBefore s.clock.timebase (s.clock.expected - BitVec.ofNat 48 s.clock.window) = true) ∧
      (runs [.fsyncInEdge] (later 40665 running)).clock.glitches = 1 ∧
      running.clock.edgeSeen = true ∧ part.clock.substate = .idle ∧ part.clock.edgeSeen = false ∧
      runningInternal.clock.substate = .tracking ∧ isInternal runningInternal = true := by decide +kernel

theorem witness_AnchorEdgeTakesTheAnchor :
    let s := runs [.start] primed
    s.power.on = true ∧ s.power.brstLow = false ∧ s.clock.edgeSeen = false ∧ s.clock.substate = .awaitingAnchor ∧
      s.ctl.record = some record19 ∧ (runs [.fsyncInEdge] s).clock.expected = 41666#48 := by decide +kernel

/-- The first and the last instant of the window. -/
theorem witness_AcceptedEdgeAdvances :
    let early := later 40666 running
    let late := later 42666 running
    let inWindow (s : State) : Bool :=
      !timeBefore s.clock.timebase (s.clock.expected - BitVec.ofNat 48 s.clock.window) &&
        !timeBefore (s.clock.expected + BitVec.ofNat 48 s.clock.window) s.clock.timebase
    inWindow early = true ∧ inWindow late = true ∧ early.clock.edgeSeen = false ∧ early.clock.lastAccepted = some 0#48 ∧
      early.ctl.record = some record19 ∧ windowDue late = false := by decide +kernel

theorem witness_ExpiriesAdvance :
    windowDue (later 42667 running) = true ∧ windowDue (later 42666 running) = false ∧
      internalDue (later 41666 runningInternal) = true ∧ internalDue (later 41665 runningInternal) = false ∧
      running.ctl.record = some record19 ∧ running.clock.unitCount < 16777215 := by decide +kernel

theorem witness_LateEdgeIsAMissFirst :
    let s := later 42667 running
    s.clock.substate = .tracking ∧ isInternal s = false ∧ s.clock.edgeSeen = false ∧ windowDue s = true ∧
      timeBefore s.clock.timebase (s.clock.expected - BitVec.ofNat 48 s.clock.window) = false := by decide +kernel

/-- The miss that leaves the clock IDLE: at the final advance, and by a latch at the loss limit (log 19). -/
theorem witness_late_edge_left_idle :
    let last := later 42667 { running with ctl := { running.ctl with position := 21599 } }
    let lost := later 42667 { running with clock := { running.clock with consecutive := 2 } }
    (missRaises last = false ∧ windowDue last = true ∧ (miss last).clock.substate = .idle) ∧
      (missRaises lost = true ∧ windowDue lost = true ∧
        (advanceIn (.syncLoss :: blockReactions) (lost.setClock (missClock lost))).clock.substate = .idle ∧
        (advanceIn (.syncLoss :: blockReactions) (lost.setClock (missClock lost))).ctl.state = .held) := by
  intro last lost
  refine ⟨⟨by decide +kernel, by decide +kernel, ?_⟩, by decide +kernel⟩
  unfold miss
  rw [if_neg (by decide +kernel)]
  exact ((advance_does (.inl rfl) _).ended (by decide +kernel)).2

/-- An advance into reel 1 with its key LAPSED, one behind both frontiers, one without, and one under a TIMED blank. -/
theorem witness_Advanced :
    let two := { record19 with reels := [{ record19.reels.headD default with duration := 1 }, record19.reels.headD default] }
    let s := { running with
      ctl := { running.ctl with record := some two }
      keys := vput running.keys 4 (.lapsed (fields .picture) 3#128 0)
      unpack := { running.unpack with late := 1 }
      sup := { running.sup with countdown := 2 } }
    let t := advanceIn blockReactions s
    isFull s = true ∧ lapsesAt s 1 = true ∧ t.ctl.keyLapsed = true ∧ outputCondition t = .blankLatched ∧
      t.unpack.late = 2 ∧ t.unpack.starved = true ∧ t.sound.starved = false ∧ t.count.blanked = 1 ∧
      (advanceIn blockReactions running).unpack.late = 1 ∧ outputCondition running = .openOutput ∧
      outputCondition (advanceIn blockReactions running) = .openOutput ∧ isFull (runs [.primePreview] loaded) = false := by
  decide +kernel

/-- The final advance, the one that brings the output back to OPEN, and a TIMED raise before and after the Supervisor's count. -/
theorem witness_Advanced_output :
    let final := { running with ctl := { running.ctl with position := 21599 } }
    let ending := advanceIn blockReactions final
    let blank := { running with sup := { running.sup with countdown := 1 } }
    let back := advanceIn blockReactions blank
    let late := { running with ctl := { running.ctl with position := 5 }, unpack := { running.unpack with late := 1 } }
    let starves (order : List Reaction) := advanceIn order { late with unpack := { late.unpack with frontier := some 0 } }
    final.ctl.position + 1 = showTotal final ∧ ending.ctl.state = .ended ∧ ending.sound.ramp = rampTo final.sound .silence ∧
      ending.link.eventPending.getLsbD 1 = true ∧ outputCondition blank = .blankTimed ∧ outputCondition back = .openOutput ∧
      back.sound.ramp = rampTo blank.sound .unity ∧ back.count.ram = blank.count.ram ∧ late.unpack.starved = false ∧
      (starves blockReactions).unpack.starved = true ∧ (policyOfKind late .pictureStarved).policy = .timed ∧
      (starves blockReactions).sup.countdown ∈ [23, 24] ∧ (starves blockReactions.reverse).sup.countdown ∈ [23, 24] ∧
      (starves blockReactions).sup.countdown ≠ (starves blockReactions.reverse).sup.countdown := by decide +kernel

/-- The events of an advance: a lane's at its low mark and not without a due cue, FAULT of a raise and not without one, and the clock
IDLE with a hold. -/
theorem witness_Advanced_events :
    let queued (s : State) := { s with cues := { s.cues with laneB := { s.cues.laneB with queue := [cueOf 1 1 9] } } }
    let quiet := { running with link := { running.link with eventPending := 0#7 } }
    let events (s : State) := (advanceIn blockReactions s).link.eventPending
    let two : ShowRecord :=
      { record19 with reels := [{ record19.reels.headD default with duration := 1 }, record19.reels.headD default] }
    let lapsing := { quiet with
      ctl := { quiet.ctl with record := some two }
      keys := vput quiet.keys 4 (.lapsed (fields .picture) 3#128 0) }
    events quiet = 0#7 ∧ events (queued quiet) = 32#7 ∧ events lapsing = 3#7 ∧
      (advanceIn blockReactions lapsing).clock.substate = .idle ∧ (advanceIn blockReactions quiet).clock.substate = .tracking ∧
      events { quiet with ctl := { quiet.ctl with position := 21599 } } = 2#7 := by decide +kernel

theorem witness_AnchorTimeoutRaisesOnce :
    let s := runs [.start] primed
    anchorDue (later 166664 s) = true ∧ anchorDue (later 166663 s) = false ∧ s.clock.syncLoss = false ∧
      (policyOfKind s .syncLoss).policy = .latch ∧
      (runs [.anchorTimeout] (later 166664 s)).ctl.state = .held ∧
      (policyOfKind (runs [.writePolicy .syncLoss ⟨1#8, 24#8, false, 0#8, 0#8, 0#8⟩] s) .syncLoss).policy = .report := by
  decide +kernel

/-- The full show one unit before its commit unit. -/
def beforeCommit : State := { running with ctl := { running.ctl with position := 10799 } }

theorem witness_CommitCountsTheShowing :
    let t := advanceIn blockReactions beforeCommit
    beforeCommit.ctl.mark = .full ∧ beforeCommit.ctl.committed = false ∧ beforeCommit.ctl.record = some record19 ∧
      beforeCommit.count.reserved = some 0 ∧ licenceOf beforeCommit.count.ram.licences[0] = some licence7 ∧
      beforeCommit.ctl.position + 1 = beforeCommit.ctl.commitUnit ∧ beforeCommit.count.status = .ready ∧
      t.ctl.committed = true ∧ t.count.ram.sequence = 1 ∧ t.ctl.position = 10800 := by decide +kernel

/-- The state before the commit at each of the three commands that make it, late and in the window, and the commit in a store FAILED. -/
theorem witness_commit_commands :
    let due := later 42667 beforeCommit
    let edge := later 41666 beforeCommit
    let own := later 41666 { runningInternal with ctl := { runningInternal.ctl with position := 10799 } }
    let failed := { beforeCommit with count := { beforeCommit.count with status := .failed } }
    let notEarly (s : State) : Bool := !timeBefore s.clock.timebase (s.clock.expected - BitVec.ofNat 48 s.clock.window)
    windowDue due = true ∧ windowDue edge = false ∧ notEarly due = true ∧ notEarly edge = true ∧
      due.clock.edgeSeen = false ∧ due.clock.substate = .tracking ∧ isInternal due = false ∧ due.power.brstLow = false ∧
      internalDue own = true ∧ own.ctl.mark = .full ∧ own.ctl.committed = false ∧ own.ctl.commitUnit = 10800 ∧
      licenceOf own.count.ram.licences[0] = some licence7 ∧ own.count.reserved = some 0 ∧
      (advanceIn blockReactions failed).count.ram.licences[0] = .suspended { licence7 with remaining := 2, used := 1 } ∧
      (advanceIn (.syncLoss :: blockReactions) failed).count.status = .failed := by decide +kernel

theorem witness_DerivedValuesOfARecord :
    totalDuration record19 = 21600 ∧ samplesPerUnit record19 = 2000 ∧
      (let r := { record19 with reels := [record19.reels.headD default, record19.reels.headD default] }
       currentReel r 21599 = 0 ∧ currentReel r 21600 = 1 ∧ currentReel r 43200 = 1 ∧ reelStart r 1 = 21600 ∧
         (reelEntered r 21600).isSome = true ∧ reelEntered r 21601 = none ∧ reelEntered r 0 = none) := by decide

/-- LOAD SHOW is accepted and refused. -/
theorem witness_LoadShowFollowsItsChecks :
    (runs [.loadShow (showOf 1)] part).ctl.state = .loaded ∧ (runs [.loadShow (showOf 16)] part).link.result = .ok ∧
      (runs [.loadShow (showOf 17)] part).link.detail = 9 ∧
      (runs [.loadShow { showOf 1 with licenceSlot := 8#8 }] part).link.detail = 2 := by decide +kernel

theorem witness_PrimeFollowsItsChecks :
    loaded.ctl.record = some record19 ∧ primed.ctl.state = .primed ∧ primed.ctl.commitUnit = 10800 ∧
      primed.keys[4] = .inUse (fields .picture) 3#128 ∧ primed.count.reserved = some 0 ∧
      (runs [.prime] { loaded with secure := {} }).link.detail = 2 := by decide +kernel

/-- The slots a record names, and each state of a slot at PRIME and at STOP. -/
theorem witness_key_slots :
    let f := fields .picture
    namedKeys record19 = [4, 5] ∧ [KeySlot.empty, .loaded f 3#128, .inUse f 3#128, .lapsed f 3#128 1, .expired f].map takeSlot =
        [.empty, .inUse f 3#128, .inUse f 3#128, .lapsed f 3#128 1, .expired f] ∧
      [KeySlot.empty, .loaded f 3#128, .inUse f 3#128, .lapsed f 3#128 1, .expired f].map releaseSlot =
        [.empty, .loaded f 3#128, .loaded f 3#128, .expired f, .expired f] := by decide

/-- The codes of a record at the last of each table and one past it. -/
theorem witness_codes :
    (editRateOf 6#8, editRateOf 7#8) = (some .r24000over1001, none) ∧ (sampleRateOf 1#8, sampleRateOf 2#8) = (some .hz96000, none) ∧
      (syncSourceOf 1#8, syncSourceOf 2#8) = (some .internal, none) ∧ (regionKindOf 5#8, regionKindOf 6#8) = (some .cue, none) ∧
      (filterActionOf 2#8, filterActionOf 3#8) = (some .reject, none) := by decide

theorem witness_PreviewAndUnloadTakeNothing :
    (runs [.primePreview] loaded).ctl.mark = .preview ∧ (runs [.unload] loaded).ctl.state = .empty := by decide +kernel

theorem witness_StartBeginsTheShow :
    primed.ctl.record = some record19 ∧ (runs [.start] primed).ctl.state = .running ∧
      (runs [.start] primed).clock.substate = .awaitingAnchor ∧ runningInternal.clock.substate = .tracking := by decide +kernel

/-- The running show held. -/
def held : State := runs [.hold] running

theorem witness_HoldFreezesTheShow : held.ctl.state = .held ∧ held.clock.substate = .idle := by decide +kernel

theorem witness_ResumeGoesOn :
    held.ctl.record = some record19 ∧ (runs [.resume] held).ctl.state = .running ∧
      (runs [.resume] held).clock.substate = .awaitingAnchor := by decide +kernel

theorem witness_StopReleasesTheShow :
    (runs [.stop] running).ctl.state = .loaded ∧ (runs [.stop] running).keys[4] = .loaded (fields .picture) 3#128 ∧
      (runs [.stop] running).count.reserved = none ∧ (runs [.stop] loaded).link.detail = 1 := by decide +kernel

/-- Each state that refuses. -/
theorem witness_WrongStateIsRefused :
    running.ctl.state ≠ .loaded ∧ running.ctl.state ≠ .primed ∧ running.ctl.state ≠ .held ∧ held.ctl.state ≠ .running ∧
      part.ctl.state = .empty ∧ loaded.ctl.state = .loaded ∧ running.ctl.state ≠ .empty := by decide +kernel

/-- What the unwrap function yields is open; a blob that yields these fields passes every check. -/
theorem witness_LoadKeyFollowsItsChecks :
    let p : PlainKey := ⟨some .picture, 1#64, 2#64, 3#128, 0#32, 1000#32, 9#32⟩
    firstFailure (keyChecks 0 p 9#32 part) = none ∧ firstFailure (keyChecks 4 p 9#32 part) = some (.refusedState, 1) ∧
      firstFailure (keyChecks 0 p 8#32 part) = some (.keyWrap, 3) := by decide +kernel

theorem witness_PurgeKeyEmptiesAFreeSlot :
    part.keys[4] = .loaded (fields .picture) 3#128 ∧ part.keys[0] = .empty ∧
      primed.keys[4] = .inUse (fields .picture) 3#128 ∧
      (runs [.keyExpiry 4] { part with secure := { part.secure with time := 1000 } }).keys[4] = .expired (fields .picture) ∧
      (runs [.keyExpiry 4] { primed with secure := { primed.secure with time := 1000 } }).keys[4] =
        .lapsed (fields .picture) 3#128 0 ∧
      (runs [.prime] { loaded with keys := vput loaded.keys 4 .empty }).link.detail = 14 := by decide +kernel

/-- A tick before and at a not-after time, at the end of a trim year, without a time, and without the main supply. -/
theorem witness_SecureTickCountsAndExpires :
    let at998 := { part with secure := { part.secure with time := 998 } }
    let year := { part with secure := { part.secure with yearOpen := true, elapsed := 31535999, trimSum := -7 } }
    (runs [.secureTick] at998).keys[4] = .loaded (fields .picture) 3#128 ∧
      (runs [.secureTick, .secureTick] at998).keys[4] = .expired (fields .picture) ∧
      (runs [.secureTick] year).secure = { valid := true, time := 11 } ∧ State.reset.secure.valid = false ∧
      (runs [.lossOfPower false] part).power.backupHeld = true ∧
      (runs [.lossOfPower false, .secureTick] part).secure.time = 11 ∧
      (runs [.trimYearClose] { part with secure := { part.secure with yearOpen := true, elapsed := 31536000 } }).secure.yearOpen
        = false := by decide +kernel

theorem witness_SetTimeIsTakenOnce :
    State.reset.secure.valid = false ∧ part.secure.valid = true ∧
      (runs [.setTime 5#32, .secureTick] State.reset).secure.time = 6 := by decide +kernel

/-- The trim sum stops at 360 either way. -/
theorem witness_TrimTimeIsBounded :
    (runs [.trimTime 400#16] part).secure.trimSum = 360 ∧ (runs [.trimTime 400#16] part).secure.time = 370 ∧
      (runs [.trimTime 300#16, .trimTime 65176#16] { part with secure := { part.secure with time := 900 } }).link.delta = -360 ∧
      (runs [.trimTime 65516#16] part).link.delta = -10 ∧ part.secure.time ≤ 4294967295 ∧
      (runs [.trimTime 1#16] State.reset).link.result = .refusedState := by decide +kernel

/-- What the unwrap function yields is open; a blob that yields these fields passes every check; 9.3's renewal. -/
theorem witness_LoadLicenceFollowsItsChecks :
    let p : PlainLicence := ⟨5#32, 7#64, 12, 0#32, 1000#32, 500, 9#16, 9#32⟩
    let used7 := { part with count := { part.count with ram := { part.count.ram with
      licences := vput part.count.ram.licences 0 (.active { licence7 with granted := 10, remaining := 3, used := 7 }) } } }
    firstFailure (licenceChecks 0 p 9#32 part) = none ∧ firstFailure (licenceChecks 1 p 9#32 part) = none ∧
      (licenceOf (licenceLoaded 0 p used7).count.ram.licences[0]).map (fun l => (l.used, l.remaining)) = some (7, 5) ∧
      firstFailure (licenceChecks 0 { p with granted := 6 } 9#32 used7) = some (.refusedValue, 8) := by decide +kernel

/-- A log record of slot 0. -/
def record1 : LogRecord := ⟨1, 0, 5#32, 7#64, 10, 21600, .openOutput, 0⟩

/-- The part with one record in the log. -/
def logged : State :=
  { part with count := { part.count with ram := { part.count.ram with log := [record1], sequence := 1 } } }

theorem witness_DeleteLicenceFollowsItsChecks :
    (runs [.deleteLicence 0] part).count.status = .busy (.slot 0 .empty) ∧
      (runs [.deleteLicence 1] part).count.status = .ready ∧ (runs [.deleteLicence 0] logged).link.detail = 4 ∧
      (runs [.deleteLicence 0] primed).link.detail = 3 := by decide +kernel

theorem witness_PopLogTakesTheOldest :
    (runs [.popLog 1#64] logged).count.status = .busy (.log []) ∧ (runs [.popLog 2#64] logged).link.detail = 3 ∧
      (logged.count.ram.log.head?).map (·.sequence) = some 1 ∧ logged.count.status = .ready ∧
      (runs [.storeWriteCompletion, .popLog 1#64] (runs [.popLog 1#64] logged)).link.detail = 3 := by decide +kernel

theorem witness_SetScreenIsTakenOnce :
    (runs [.setScreen 9#16] State.reset).count.ram.screenId = 9#16 ∧ (runs [.setScreen 8#16] part).link.detail = 3 := by
  decide +kernel

/-- A store programming a slot, alone, with a commit waiting, and with a reload owed. -/
theorem witness_CompletedWriteStoresItsImage :
    let busy := runs [.deleteLicence 0] part
    let waits := { busy with count := { busy.count with waiting := [1] } }
    let owed := runs [.reset] busy
    busy.count.status = .busy (.slot 0 .empty) ∧ busy.count.waiting = [] ∧ busy.count.reloadDue = false ∧
      waits.count.waiting ≠ [] ∧ owed.count.reloadDue = true ∧ owed.count.status = busy.count.status ∧
      (runs [.storeWriteCompletion] busy).count.store = busy.count.ram := by decide +kernel

theorem witness_FailedWriteSuspendsItsSlots :
    let busy := advanceIn blockReactions beforeCommit
    busy.power.on = true ∧ (policyOfKind busy .storeFail).policy = .latch ∧ busy.ctl.state = .running ∧
      busy.count.status = .busy (.commit [(0, busy.count.ram.licences[0])] busy.count.ram.log 1) ∧
      (runs [.storeWriteFailure] busy).count.ram.licences[0] =
        .suspended { licence7 with remaining := 2, used := 1 } ∧
      (runs [.storeWriteFailure] busy).ctl.state = .held := by decide +kernel

/-- The slots of each kind of write, and each state of a slot that becomes SUSPENDED. -/
theorem witness_suspended :
    commitSlots (.commit [(3, .empty)] [] 1) = [3] ∧ commitSlots (.slot 3 .empty) = [] ∧ commitSlots (.log []) = [] ∧
      commitSlots (.screen 3#16) = [] ∧
      [LicenceSlot.empty, .active licence7, .suspended licence7].map suspendSlot =
        [.empty, .suspended licence7, .suspended licence7] := by decide

/-- A commit that joins the waiting set of a BUSY store marks its microsecond, and the next one clears the mark. -/
theorem witness_commit_seen :
    let behind := { beforeCommit with count := { beforeCommit.count with status := .busy (.log []) } }
    let waits := advanceIn blockReactions behind
    waits.count.waiting = [0] ∧ waits.count.commitSeen = true ∧ behind.count.commitSeen = false ∧
      waits.count.status = .busy (.log []) ∧ (countMicrosecond waits).count.commitSeen = false ∧
      (runs [.storeWriteCompletion] waits).count.commitSeen = false := by decide +kernel

/-- The latched WATCHDOG is kept while its condition is active, and cleared once fed. -/
theorem witness_ClearFaultsKeepsActiveConditions :
    let armed := runs [.writePolicy .watchdog ⟨3#8, 24#8, true, 1#8, 1#8, 0#8⟩] running
    let raised := runs [.watchdogExpiry] (later 1000000 armed)
    outputCondition raised = .blankLatched ∧ (runs [.clearFaults 511#16] raised).link.detail = 1 ∧
      outputCondition (runs [.clearFaults 511#16] raised) = .blankLatched ∧
      outputCondition (runs [.tickle, .clearFaults 511#16] raised) = .openOutput := by decide +kernel

theorem witness_WatchdogFeedsAndExpires :
    let armed := runs [.writePolicy .watchdog ⟨3#8, 24#8, true, 1#8, 1#8, 0#8⟩] running
    let ignored := runs [.writePolicy .watchdog ⟨0#8, 24#8, true, 1#8, 1#8, 0#8⟩] running
    watchdogDue (later 1000000 armed) = true ∧ watchdogDue (later 999999 armed) = false ∧
      (policyOfKind armed .watchdog).policy = .latch ∧ watchdogDue (later 1000000 ignored) = true ∧
      (policyOfKind ignored .watchdog).policy = .ignore ∧ armed.sup.watchdog.condition = false ∧
      armed.sup.watchdog.tickSeen = false ∧ (runs [.wdTick] armed).sup.watchdog.tickSeen = true ∧
      (let again := runs [.watchdogExpiry] (later 1000000 armed)
       again.sup.watchdog.condition = true ∧
         watchdogDue { again with sup := { again.sup with watchdog := { again.sup.watchdog with deadline := some 0#48 } } }
           = true) := by decide +kernel

theorem witness_WritePolicyFollowsItsChecks :
    (runs [.writePolicy .pictureStarved ⟨3#8, 255#8, true, 8#8, 0#8, 0#8⟩] part).unpack.limit = 8 ∧
      (runs [.writePolicy .pictureStarved ⟨3#8, 255#8, true, 9#8, 0#8, 0#8⟩] part).link.detail = 4 ∧
      (runs [.writePolicy .soundStarved ⟨0#8, 1#8, true, 1#8, 37#8, 128#8⟩] part).sound.rampLength = 9600 ∧
      (runs [.writePolicy .storeFail ⟨1#8, 1#8, true, 0#8, 0#8, 0#8⟩] part).link.detail = 2 ∧
      (runs [.writePolicy .unitCheck ⟨1#8, 0#8, true, 0#8, 0#8, 0#8⟩] part).link.detail = 3 := by decide +kernel

theorem witness_MaskCommandsAreTaken :
    (runs [.setMute 3#16] running).sound.activeMask = 0#16 ∧ (runs [.setMute 3#16] part).sound.activeMask = 3#16 ∧
      (runs [.laneEnable 2#8] part).overlay.enableA = false ∧ running.link.eventPending = 2#7 ∧
      (runs [.ackEvents 130#8] running).link.eventPending = 0#7 := by decide +kernel

/-- A FRAME record. -/
def frameWrite : RegionWrite :=
  ⟨true, 3#8, 1#8, 9#8, 100#40, 16#32, 7#16, 32#16, 2#16, 4#16, true, true⟩

theorem witness_RegionRecordFollowsItsChecks :
    (runs [.regionRecord 5 frameWrite] part).path.regions[5] =
        { valid := true, base := 100, size := 16, kind := .frame, writers := 1#8, width := 32, height := 2, pitch := 4,
          range := .limited, isProtected := true } ∧
      (runs [.regionRecord 5 { frameWrite with base := 1048575#40 }] part).link.detail = 7 ∧
      (runs [.regionRecord 5 { frameWrite with pitch := 1#16 }] part).link.detail = 6 ∧
      (runs [.regionRecord 5 { frameWrite with kind := 6#8 }] part).link.detail = 2 ∧
      (runs [.regionRecord 5 { frameWrite with valid := false, kind := 6#8 }] part).link.result = .ok := by decide +kernel

theorem witness_ParameterWritesStoreTheirFields :
    (runs [.writeClock 100#16 15#8] part).clock.window = 100 ∧ (runs [.writeClock 99#16 15#8] part).link.result = .refusedValue ∧
      (runs [.writeClock 100#16 15#8] running).link.result = .refusedState ∧
      (runs [.writeLowMark .b 15#8] part).cues.laneB.lowMark = 15 ∧ (runs [.writeLowMark .b 16#8] part).link.detail = 2 ∧
      (runs [.writeFilter 7 ⟨true, 3#8, 0#16, 0#16⟩] part).link.detail = 2 := by decide +kernel

/-- The last record of the log and one past it; a transfer of five bytes. -/
theorem witness_ReadsTakeAndDeliverSnapshots :
    (runs [.readRecord .log 0#8] logged).link.snapshot.bytes.length = 31 ∧
      (runs [.readRecord .log 1#8] logged).link.snapshot.result = .badIndex ∧
      (runs [.readRecord .status 0#8] running).link.snapshot.bytes.length = 200 ∧
      (runs [.readRecord .region 24#8] part).link.snapshot.result = .badIndex ∧
      (runs [.readRecord .ident 0#8, .readTransfer 4] part).out.link = [0#8, 16#8, 2#8, 128#8] ∧
      (runs [.readTransfer 5] part).out.link = [0#8, 0#8, crc8 [177#8, 0#8, 0#8], 255#8, 255#8] := by decide +kernel

/-- Records in the order of their tables: the KEY record holds no material, the LICENCE record of the slot that a show reserves. -/
theorem witness_record_fields :
    (recordBytes primed .key 4).map (·.take 12) = some ([2#8, 1#8, 0#8, 0#8] ++ List.replicate 7 0#8 ++ [1#8]) ∧
      (recordBytes primed .licence 0).map (·.take 6) = some [1#8, 1#8, 0#8, 0#8, 0#8, 5#8] ∧
      (recordBytes primed .region 0).map (·.take 9) = some [1#8, 1#8, 2#8, 0#8, 0#8, 0#8, 16#8, 0#8, 0#8] ∧
      (recordBytes running .status 0).map (·.take 2) = some [3#8, 1#8] ∧
      (recordBytes running .clock 0).map (·.take 2) = some [2#8, 1#8] ∧
      (recordBytes part .policy 0).map (·.take 3) = some [3#8, 24#8, 1#8] ∧
      laid (recordFields running .showing 0) = (recordBytes running .showing 0).getD [] := by decide +kernel

theorem witness_IdentNamesThePart :
    (runs [.powerOnReset false true 3#2, .readRecord .ident 0#8] part).link.snapshot.bytes.take 4 = [2#8, 128#8, 1#8, 91#8] := by
  decide +kernel

theorem witness_RefusedPacketsLeaveTheirResult :
    crcFails [176#8, 3#8, 4#8, 0#8, 0#8, 0#8] = true ∧ writeAddressByte part = 176#8 ∧
      endsEarly [176#8, 3#8] = true ∧ linkRefusal 0#8 0#8 0#8 [] = some .badTable ∧
      linkRefusal 3#8 19#8 0#8 [] = none ∧ linkRefusal 3#8 20#8 0#8 [] = some .badTable ∧
      linkRefusal 2#8 11#8 0#8 [] = none ∧ linkRefusal 2#8 12#8 0#8 [] = some .badTable ∧
      linkRefusal 2#8 1#8 24#8 [] = some .badIndex ∧ linkRefusal 2#8 1#8 23#8 [0#8] = some .badLength ∧
      linkRefusal 1#8 1#8 24#8 [] = some .badIndex ∧ tableOf 7#8 = some .status ∧ tableWritable .status = false := by
  decide +kernel

/-- R158's index and length checks of a COMMAND, of a READ RECORD and of a WRITE RECORD, at their bounds. -/
theorem witness_link_checks :
    linkRefusal 3#8 12#8 16#8 [] = some .badIndex ∧ linkRefusal 3#8 12#8 15#8 [] = none ∧
      linkRefusal 3#8 13#8 8#8 [] = some .badIndex ∧ linkRefusal 3#8 1#8 1#8 [] = some .badIndex ∧
      linkRefusal 3#8 8#8 0#8 [0#8] = some .badLength ∧ linkRefusal 3#8 8#8 0#8 [0#8, 0#8] = none ∧
      linkRefusal 3#8 0#8 0#8 [] = some .badTable ∧ linkRefusal 1#8 7#8 0#8 [] = some .badTable ∧
      tableOf 4#8 = some .showing ∧ linkRefusal 1#8 4#8 0#8 (List.replicate 15 0#8) = some .badLength ∧
      linkRefusal 1#8 4#8 0#8 (List.replicate 16 0#8) = none ∧
      linkRefusal 1#8 4#8 0#8 (List.replicate 15 0#8 ++ [1#8]) = some .badLength ∧
      linkRefusal 1#8 4#8 0#8 (List.replicate 15 0#8 ++ [1#8] ++ List.replicate 8 0#8) = none ∧
      linkRefusal 1#8 5#8 8#8 (List.replicate 8 0#8) = some .badLength ∧ linkRefusal 1#8 5#8 8#8 (List.replicate 24 0#8) = none ∧
      linkRefusal 1#8 5#8 11#8 [] = some .badIndex := by decide +kernel

/-- A request while the link is not ready: BRST_N low, no supply, the end of a transfer that booth reset cut off, and the next. -/
theorem witness_link_not_ready :
    let low := runs [.boothReset (some 3)] part
    let cut := runs [.brstNRelease] low
    low.link.cutOff = true ∧ cut.power.brstLow = false ∧ (runs [.setMute 3#16] cut).sound.pendingMask = 0#16 ∧
      (runs [.setMute 3#16] cut).link.cutOff = false ∧ (runs [.setMute 3#16, .setMute 3#16] cut).sound.pendingMask = 3#16 ∧
      (runs [.boothReset, .brstNRelease, .setMute 3#16] part).sound.pendingMask = 3#16 ∧
      (runs [.lossOfPower false, .setMute 3#16] part).sound.pendingMask = 0#16 := by decide +kernel

/-- The bytes acknowledged (R157): of a request, a failed CRC, a packet cut short, a refused one and a read; none while not ready, nor of
another part's transfer, nor after the CRC byte; and what a booth reset says of the transfer that it cuts off. -/
theorem witness_acknowledged :
    let acked (c : Instr) (s : State) : Nat := (runs [c] s).out.acked
    let wrong : List Byte := [176#8, 3#8, 4#8, 0#8, 0#8, 0#8]
    acked .hold part = 6 ∧ acked (.badCrc wrong) part = 6 ∧ acked (.badLengthTruncated [176#8, 3#8]) part = 2 ∧
      acked (.unrecognisedPacket 9#8 0#8 0#8 [1#8]) part = 7 ∧ acked (.readTransfer 9) part = 1 ∧
      acked .hold (runs [.boothReset (some 3)] part) = 0 ∧ acked (.boothReset (some 3)) part = 3 ∧
      acked (.loadShow (showOf 29)) part = 254 ∧ (part.out.acked, (runs [.lineRead 0#40 .proc] part).out.acked) = (0, 0) ∧
      ackedBytes 0#2 (holdPacket ++ [1#8]) = 6 ∧ ackedBytes 0#2 (holdPacket.take 1) = 1 ∧ ackedBytes 0#2 [177#8, 0#8] = 1 ∧
      ackedBytes 0#2 (178#8 :: holdPacket.tail) = 0 ∧ ackedBytes 0#2 [] = 0 := by decide +kernel

theorem witness_PacketsReadBack :
    (Instr.loadShow (showOf 29)).wellFormed = true ∧
      (encodePacket 0#2 (.loadShow (showOf 2))).map (fun p => (p.length, decodePacket 0#2 p)) =
        some (38, .request (.loadShow (showOf 2))) ∧
      encodePacket 0#2 .hold = some holdPacket ∧ (89#8 : Byte).toNat ≠ 2 * (88 + (0#2 : BitVec 2).toNat) := by decide +kernel

theorem witness_BoothResetKeepsWhatItMust :
    part.power.on = true ∧ part.power.brstLow = false ∧ (runs [.boothReset] part).power.brstLow = true ∧
      (runs [.reset] running).ctl = {} ∧ (runs [.reset] running).secure = running.secure ∧
      (runs [.boothReset (some 3), .brstNRelease] part).power.brstLow = false ∧
      (runs [.boothReset (some 3)] part).link.cutOff = true ∧ (runs [.boothReset (some 0)] part).link.cutOff = true ∧
      (runs [.boothReset] part).link.cutOff = false := by decide +kernel

theorem witness_PowerOnReadsTheStore :
    (runs [.lossOfPower true, .powerOnReset true true 1#2] part).secure = {} ∧
      (runs [.lossOfPower false, .powerOnReset true true 1#2] part).secure = part.secure ∧
      (runs [.powerOnReset true false 1#2] part).count.status = .failed := by decide +kernel

/-! ### The laws hold of a running full show, and it steps on -/

theorem witness_StepsKeepTheTables : RegionsOk running ∧ ParametersOk running := by
  constructor
  · unfold RegionsOk fieldsKept; decide +kernel
  · simp only [ParametersOk, ← and_assoc]
    exact ⟨by decide +kernel, fun k => by cases k <;> decide +kernel⟩

theorem witness_StepsKeepTheSecureClock : SecureOk running ∧ SecureOk State.reset := by
  unfold SecureOk; decide +kernel

theorem witness_StepsKeepLanesAndContexts : LanesOk (withActive (cueOf 1 0 30000) running) := by
  unfold LanesOk laneOk; decide +kernel

theorem witness_StepsKeepTheShow : ShowOk running ∧ KeysOk running ∧ CopiesOk running := by
  refine ⟨⟨?_, ?_, ?_, ?_, ?_⟩, ?_, ?_⟩
  · decide +kernel
  · decide +kernel
  · decide +kernel
  · intro r h
    have : r = record19 := Option.some.inj (h.symm.trans (by decide +kernel))
    subst this; decide +kernel
  · decide +kernel
  · intro _ r h
    have : r = record19 := Option.some.inj (h.symm.trans (by decide +kernel))
    subst this; decide +kernel
  · intro k; cases k <;> decide +kernel

theorem witness_StepsKeepTheCounts : ImageOk primed.count.ram ∧ StoreOk primed.count ∧ ReservationOk primed := by
  have counts : ∀ i : Fin 8, licenceCounts primed.count.ram.licences[i] := by
    intro i l h
    have : i = 0 ∧ l = licence7 := by
      revert l; revert i; decide +kernel
    obtain ⟨_, rfl⟩ := this; decide
  refine ⟨⟨counts, by decide +kernel, by decide +kernel, by decide +kernel, by decide +kernel⟩, ?_, ?_⟩
  · exact ⟨by decide +kernel, by decide +kernel⟩
  · intro _ _; exact ⟨by decide +kernel, 0, licence7, by decide +kernel, by decide +kernel, by decide⟩

/-- A running show with a command waiting steps on. -/
theorem witness_a_step_is_taken :
    ∃ t, step { running with pending := [.secureTick] } = .next t ∧ t.secure.time = 11 := ⟨_, rfl, by decide +kernel⟩

end Sys2Proof.Tests
end

section
/-! SUPPORT. Proofs/MemoryPath.lean: what the operations of the Path Classifier do to the state, each said once: what is sent, what
is in flight, what a lookup finds (R2, R4, R9, R12 to R16). -/

namespace Sys2Proof.Machine

/-! ### What is sent -/

/-- The transactions that named side reads send (R13). -/
def sideMessages (txn : Nat) (named : List NamedSide) : List DownMsg :=
  named.filterMap fun n => n.sent.map fun l => .sideRead txn n.side.entry.lane l

theorem sideMessages_cons (txn : Nat) (n : NamedSide) (named : List NamedSide) :
    sideMessages txn (n :: named) =
      (n.sent.map fun l => DownMsg.sideRead txn n.side.entry.lane l).toList ++ sideMessages txn named := by
  cases h : n.sent <;> simp [sideMessages, h]

/-- Sending the side reads appends their transactions, lane by lane, and changes nothing else. -/
theorem sendSides_eq (txn : Nat) (named : List NamedSide) (s : State) :
    sendSides txn named s = s.setOut { s.out with down := s.out.down ++ sideMessages txn named } := by
  unfold sendSides
  induction named generalizing s with
  | nil => simp [sideMessages, State.setOut]
  | cons n named ih =>
    rw [List.foldl_cons, ih, sideMessages_cons]
    cases n.sent <;> simp [sendDown, State.setOut]

end Sys2Proof.Machine
end

section
/-! SUPPORT. Proofs/Settings.lean: the settings of the part, that is the Region Table and the parameters; which operations leave
them, and what those that write them write (R3, R6, R21, R85, R91, R92, R97, R111, R146, R154). -/

namespace Sys2Proof.Machine

/-! ### The settings -/

/-- What the laws of the tables read of the state, less the gain ramp record: the Region Table and the parameters. -/
structure Settings where
  regions : Vector RegionEntry 24
  window : Nat
  lossLimit : Nat
  pictureLimit : Nat
  soundLimit : Nat
  rampLength : Nat
  lowMarkA : Nat
  lowMarkB : Nat
  interval : Nat
  policies : Vector PolicyEntry 9

/-- The settings of a state. -/
def settingsOf (s : State) : Settings where
  regions := s.path.regions
  window := s.clock.window
  lossLimit := s.clock.lossLimit
  pictureLimit := s.unpack.limit
  soundLimit := s.sound.limit
  rampLength := s.sound.rampLength
  lowMarkA := s.cues.laneA.lowMark
  lowMarkB := s.cues.laneB.lowMark
  interval := s.sup.watchdog.interval
  policies := s.sup.policies

/-- A gain ramp record is in range (R91, R92). -/
def rampInRange (g : GainRamp) : Prop := g.startGain ≤ 32768 ∧ g.length ≤ 9600

/-- Both laws of the tables go over from one state to another. -/
def TablesKept (s t : State) : Prop := (RegionsOk s → RegionsOk t) ∧ (ParametersOk s → ParametersOk t)

theorem RegionsOk.of_regions {s t : State} (e : t.path.regions = s.path.regions) (h : RegionsOk s) : RegionsOk t := by
  unfold RegionsOk; rw [e]; exact h

theorem ParametersOk.ramp {s : State} (h : ParametersOk s) : s.sound.rampLength ≤ 9600 ∧ rampInRange s.sound.ramp := by
  obtain ⟨-, -, -, -, length, gain, ramp, -⟩ := h
  exact ⟨length, gain, ramp⟩

/-- The parameters' law is a fact about the settings and the gain ramp record alone. -/
theorem ParametersOk.of_settings {s t : State} (e : settingsOf t = settingsOf s) (r : rampInRange t.sound.ramp)
    (h : ParametersOk s) : ParametersOk t := by
  simp only [settingsOf, Settings.mk.injEq] at e
  obtain ⟨-, window, loss, picture, sound, length, lowA, lowB, interval, policies⟩ := e
  obtain ⟨hw, hl, hp, hs, hr, -, -, ha, hb, hi, hk⟩ := h
  refine ⟨window ▸ hw, loss ▸ hl, picture ▸ hp, sound ▸ hs, length ▸ hr, r.1, r.2, lowA ▸ ha, lowB ▸ hb, interval ▸ hi, ?_⟩
  intro k
  have same : policyOfKind t k = policyOfKind s k := by simp only [policyOfKind, policies]
  exact same ▸ hk k

/-! ### Operations that write no setting -/

/-- `t` is `s` after an operation that writes no setting, and that leaves the gain ramp record in range when `b`, the record
before the event, started in range. -/
structure Steady (b : GainRamp) (s t : State) : Prop where
  settings : settingsOf t = settingsOf s
  ramp : b.startGain ≤ 32768 → s.sound.rampLength ≤ 9600 → rampInRange s.sound.ramp → rampInRange t.sound.ramp

theorem Steady.rampLength {b : GainRamp} {s t : State} (h : Steady b s t) : t.sound.rampLength = s.sound.rampLength :=
  congrArg Settings.rampLength h.settings

theorem Steady.refl (b : GainRamp) (s : State) : Steady b s s := ⟨rfl, fun _ _ h => h⟩

theorem Steady.trans {b : GainRamp} {s t u : State} (h : Steady b s t) (g : Steady b t u) : Steady b s u :=
  ⟨g.settings.trans h.settings, fun hb hl hr => g.ramp hb (h.rampLength ▸ hl) (h.ramp hb hl hr)⟩

/-- An operation that leaves the settings and the gain ramp record. -/
theorem Steady.of_same {b : GainRamp} {s t : State} (e : settingsOf t = settingsOf s) (r : t.sound.ramp = s.sound.ramp) :
    Steady b s t := ⟨e, fun _ _ h => r ▸ h⟩

/-- An operation made after a change that leaves the settings and the gain ramp record. -/
theorem Steady.after {b : GainRamp} {s t u : State} (g : Steady b t u) (e : settingsOf t = settingsOf s)
    (r : t.sound.ramp = s.sound.ramp) : Steady b s u := (Steady.of_same e r).trans g

/-- An operation made after one that has not moved the gain ramp record. -/
theorem Steady.andThen {s t u : State} (h : Steady s.sound.ramp s t) (e : t.sound.ramp = s.sound.ramp)
    (g : Steady t.sound.ramp t u) : Steady s.sound.ramp s u := h.trans (e ▸ g)

/-- An event that writes no setting keeps both laws. -/
theorem Steady.tables {s t : State} (h : Steady s.sound.ramp s t) : TablesKept s t :=
  ⟨.of_regions (congrArg Settings.regions h.settings),
    fun p => p.of_settings h.settings (h.ramp p.ramp.2.1 p.ramp.1 p.ramp.2)⟩

section
variable (b : GainRamp)

/-! ### Ramps, raises, holds -/

theorem startRamp_steady (g : RampTarget) (s : State) : Steady b s (startRamp b g s) :=
  ⟨rfl, fun hb hl _ => ⟨gain_le b _ hb, hl⟩⟩

theorem setEvent_steady (e : LinkEvent) (s : State) : Steady b s (setEvent e s) := .of_same rfl rfl

theorem modFault_steady (k : FaultKind) (f : FaultEntry → FaultEntry) (s : State) : Steady b s (modFault k f s) :=
  .of_same rfl rfl

theorem holdShow_steady (s : State) : Steady b s (holdShow b s) := by
  have idle : Steady b s (clockIdle (setShowState .held s)) := .of_same rfl rfl
  have mask (t : State) : Steady b t (activateMask t) := .of_same rfl rfl
  exact (idle.trans (startRamp_steady b _ _)).trans (mask _)

theorem raiseFault_steady (k : FaultKind) (s : State) : Steady b s (raiseFault b k s) :=
  raiseFault_keeps (P := Steady b s) (.refl b s) (fun k f t h => h.trans (modFault_steady b k f t))
    (fun e t h => h.trans (setEvent_steady b e t)) (fun _ _ h => h.trans (.of_same rfl rfl))
    (fun g t h => h.trans (startRamp_steady b g t)) (fun t _ h => h.trans (holdShow_steady b t))

theorem setDetector_steady (k : FaultKind) (v : Bool) (s : State) : Steady b s (setDetector k v s) := by
  cases k <;> exact .of_same rfl rfl

theorem raiseCondition_steady (k : FaultKind) (s : State) : Steady b s (raiseCondition b k s) := by
  unfold raiseCondition; split
  · exact .refl b s
  · exact (setDetector_steady b k true s).trans (raiseFault_steady b k _)

theorem withdraw_steady (k : FaultKind) (s : State) : Steady b s (withdraw k s) :=
  (setDetector_steady b k false s).trans (modFault_steady b k _ _)

theorem outputReturned_steady (s : State) : Steady b s (outputReturned b s) := by
  unfold outputReturned; split
  · exact startRamp_steady b _ s
  · exact .refl b s

/-! ### The advance -/

theorem laneActivate_lowMark (p bound : Nat) (x : Lane) : (laneActivate p bound x).lowMark = x.lowMark := by
  have take (y : Lane) : (takeDue p bound y).lowMark = y.lowMark := by unfold takeDue; dsimp only; split <;> rfl
  have retire : (retireActive p x).lowMark = x.lowMark := by
    unfold retireActive; split
    · rfl
    · split <;> rfl
  exact (take _).trans retire

/-- A lane replaced by one of the same low mark. -/
theorem putLane_steady {lane : LaneId} {x : Lane} {s : State} (h : x.lowMark = (cueLane s lane).lowMark) :
    Steady b s (putLane lane x s) := by
  cases lane <;> simp only [cueLane] at h <;> refine .of_same ?_ rfl <;> simp [settingsOf, putLane, h]

theorem activateLane_steady (lane : LaneId) (p bound : Nat) (s : State) : Steady b s (activateLane lane p bound s) := by
  have put := putLane_steady b (laneActivate_lowMark p bound (cueLane s lane))
  unfold activateLane; dsimp only; split
  · exact put.trans (setEvent_steady b _ _)
  · exact put

theorem activateLanes_steady (p bound : Nat) (s : State) : Steady b s (activateLanes p bound s) :=
  (activateLane_steady b .a p bound s).trans (activateLane_steady b .b p bound _)

theorem judgeStarved_steady (k : FaultKind) (behind : Bool) (late limit : Nat) (s : State) :
    Steady b s (judgeStarved b k behind late limit s) := by
  unfold judgeStarved; split
  · split
    · exact raiseCondition_steady b k s
    · exact .refl b s
  · split
    · exact withdraw_steady b k s
    · exact .refl b s

theorem reelAdvance_steady (s : State) : Steady b s (reelAdvance b s) := by
  unfold reelAdvance; split
  · exact .refl b s
  · split
    · exact .refl b s
    · split
      · exact raiseCondition_steady b _ s
      · exact .refl b s

theorem soundAdvance_steady (s : State) : Steady b s (soundAdvance b s) := by
  have mask : Steady b s (activateMask s) := .of_same rfl rfl
  have compare (t : State) : Steady b t (soundCompare b t) := by
    unfold soundCompare; split
    · exact (judgeStarved_steady b .soundStarved _ _ _ _).after rfl rfl
    · exact .refl b t
  unfold soundAdvance; dsimp only; refine .trans ?_ (compare _); split
  · exact mask.trans (startRamp_steady b _ _)
  · exact mask

theorem pictureAdvance_steady (s : State) : Steady b s (pictureAdvance b s) := by
  unfold pictureAdvance; split
  · exact (judgeStarved_steady b .pictureStarved _ _ _ _).after rfl rfl
  · exact .refl b s

theorem countdownAdvance_steady (s : State) : Steady b s (countdownAdvance b s) := by
  unfold countdownAdvance; dsimp only; split
  · exact (outputReturned_steady b _).after rfl rfl
  · exact .of_same rfl rfl

theorem storeCommit_steady (slot : Fin 8) (s : State) : Steady b s (storeCommit b slot s) := by
  unfold storeCommit; split
  · exact .of_same rfl rfl
  · exact .of_same rfl rfl
  · exact (raiseFault_steady b _ _).after rfl rfl

theorem commitShowing_steady (r : ShowRecord) (slot : Fin 8) (s : State) : Steady b s (commitShowing b r slot s) := by
  have append : Steady b s (appendShowing r slot s) := by unfold appendShowing; dsimp only; split <;> exact .of_same rfl rfl
  exact append.trans ((storeCommit_steady b slot _).after rfl rfl)

theorem countAdvance_steady (s : State) : Steady b s (countAdvance b s) := by
  have blank : Steady b s (countBlanked s) := by unfold countBlanked; split <;> exact .of_same rfl rfl
  unfold countAdvance; split
  · dsimp only; split
    · split
      · exact blank.trans (commitShowing_steady b _ _ _)
      · exact blank
    · exact blank
  · exact .refl b s

theorem react_steady (s : State) (r : Reaction) : Steady b s (react b s r) := by
  cases r with
  | reel => exact reelAdvance_steady b s
  | cues => exact activateLanes_steady b _ _ s
  | sound => exact soundAdvance_steady b s
  | picture => exact pictureAdvance_steady b s
  | countdown => exact countdownAdvance_steady b s
  | count => exact countAdvance_steady b s
  | syncLoss => exact raiseCondition_steady b .syncLoss s
end

theorem advance_steady (reactions : List Reaction) (s : State) : Steady s.sound.ramp s (advance reactions s) := by
  refine advance_keeps (P := Steady s.sound.ramp s) ?_ fun r _ t h => h.trans (react_steady _ t r)
  unfold takeAdvance; dsimp only; split <;> exact .of_same rfl rfl

/-! ### The Show Clock -/

theorem syncFound_steady (b : GainRamp) (s : State) : Steady b s (syncFound s) := by
  unfold syncFound; split
  · exact withdraw_steady b _ s
  · exact .refl b s

theorem miss_steady (s : State) : Steady s.sound.ramp s (miss s) :=
  (advance_steady _ (s.setClock (missClock s))).after rfl rfl

theorem lateEdge_steady (s : State) : Steady s.sound.ramp s (lateEdge s) := by
  unfold lateEdge; dsimp only; split
  · exact (miss_steady s).trans (.of_same rfl rfl)
  · exact miss_steady s

theorem syncFound_ramp (s : State) : (syncFound s).sound.ramp = s.sound.ramp := by unfold syncFound; split <;> rfl

theorem acceptEdge_steady (s : State) : Steady s.sound.ramp s (acceptEdge s) := by
  have found : Steady s.sound.ramp s (syncFound (s.setClock (acceptClock s))) :=
    (syncFound_steady _ _).after rfl rfl
  exact found.andThen (syncFound_ramp _) (advance_steady _ _)

theorem clockEdge_steady (s : State) : Steady s.sound.ramp s (clockEdge s) := by
  have count : Steady s.sound.ramp s (countEdge s) := .of_same rfl rfl
  unfold clockEdge; split
  · exact count
  · exact (syncFound_steady _ _).after rfl rfl
  · split
    · exact count
    · refine count.trans ?_
      unfold judgeEdge; split
      · exact .of_same rfl rfl
      · split
        · exact lateEdge_steady (countEdge s)
        · exact acceptEdge_steady (countEdge s)

theorem anchorExpires_steady (s : State) : Steady s.sound.ramp s (anchorExpires s) :=
  (raiseCondition_steady _ _ _).after rfl rfl

theorem internalExpires_steady (s : State) : Steady s.sound.ramp s (internalExpires s) :=
  (advance_steady _ (s.setClock (nextUnit s s.clock))).after rfl rfl

theorem clockLeaves_steady (b : GainRamp) (s : State) : Steady b s (clockLeaves s) := by
  unfold clockLeaves; dsimp only; split <;> exact .of_same rfl rfl

/-! ### The Unpack Engine -/

@[simp] theorem putContext_limit (i : Bool) (c : Option UnitContext) (u : Unpack) : (putContext i c u).limit = u.limit := by
  cases i <;> rfl

@[simp] theorem useContext_limit (i : Bool) (c : UnitContext) (u : Unpack) : (useContext i c u).limit = u.limit := by
  simp [useContext]

@[simp] theorem abandon_limit (i : Bool) (u : Unpack) : (abandon i u).limit = u.limit := putContext_limit i none u

@[simp] theorem freeUnit_limit (unit : Nat) (u : Unpack) : (freeUnit unit u).limit = u.limit := by
  unfold freeUnit; split
  · exact putContext_limit _ _ u
  · rfl

@[simp] theorem claimContext_limit (unit length : Nat) (crc : BitVec 32) (u : Unpack) :
    (claimContext unit length crc u).limit = u.limit := by
  have claim : (claimFor unit u).2.limit = u.limit := by
    unfold claimFor; split
    · rfl
    · split
      · rfl
      · split
        · rfl
        · exact abandon_limit _ u
  rw [claimContext, useContext_limit, claim]

/-- A change of the Unpack Engine that leaves its limit. -/
theorem setUnpack_steady {b : GainRamp} {s : State} {u : Unpack} (h : u.limit = s.unpack.limit) :
    Steady b s (s.setUnpack u) := by
  refine .of_same ?_ rfl; simp [settingsOf, h]

theorem raiseUnitCheck_steady (cause : UnitCause) (place : EssencePlace) (s : State) :
    Steady s.sound.ramp s (raiseUnitCheck cause place s) :=
  (raiseFault_steady s.sound.ramp .unitCheck (noteUnitCheck cause place.unit place.reel s)).after rfl rfl

theorem completeUnit_steady (place : EssencePlace) (register crc : BitVec 32) (s : State) :
    Steady s.sound.ramp s (completeUnit place register crc s) := by
  unfold completeUnit; split
  · exact setUnpack_steady rfl
  · exact raiseUnitCheck_steady _ _ s

theorem checkHeader_steady (place : EssencePlace) (stride : Nat) (opened : Line) (s : State) :
    Steady s.sound.ramp s (checkHeader place stride opened s) := by
  have free : Steady s.sound.ramp s (s.setUnpack (freeUnit place.unit s.unpack)) := setUnpack_steady (by simp)
  unfold checkHeader; dsimp only; split
  · exact free.andThen rfl (raiseUnitCheck_steady _ _ _)
  · split
    · exact free.andThen rfl (raiseUnitCheck_steady _ _ _)
    · split
      · exact free.andThen rfl (completeUnit_steady _ _ _ _)
      · exact setUnpack_steady (by simp)

theorem checkPayload_steady (place : EssencePlace) (i : Bool) (c : UnitContext) (opened : Line) (s : State) :
    Steady s.sound.ramp s (checkPayload place i c opened s) := by
  unfold checkPayload; split
  · split
    · have free : Steady s.sound.ramp s (s.setUnpack (putContext i none s.unpack)) := setUnpack_steady (by simp)
      exact free.andThen rfl (completeUnit_steady _ _ _ _)
    · exact setUnpack_steady (by simp)
  · exact setUnpack_steady (by simp)

theorem checkLine_steady (place : EssencePlace) (stride : Nat) (opened : Line) (s : State) :
    Steady s.sound.ramp s (checkLine place stride opened s) := by
  unfold checkLine; split
  · exact checkHeader_steady place stride opened s
  · split
    · exact .refl _ s
    · split
      · exact checkPayload_steady place _ _ opened s
      · exact .refl _ s

theorem movePictureFrontier_steady (b : GainRamp) (place : EssencePlace) (s : State) :
    Steady b s (movePictureFrontier place s) := by
  unfold movePictureFrontier; split
  · exact setUnpack_steady rfl
  · exact .refl b s

theorem sendUp_steady (b : GainRamp) (m : UpMsg) (s : State) : Steady b s (sendUp m s) := .of_same rfl rfl

theorem countWithheld_steady (b : GainRamp) (kind : EssenceKind) (reason : WithheldReason) (s : State) :
    Steady b s (countWithheld kind reason s) := by
  cases kind <;> exact setUnpack_steady rfl

theorem pictureReturn_steady (txn : Nat) (x : Binding) (line : Line) (s : State) :
    Steady s.sound.ramp s (pictureReturn txn x line s) := by
  unfold pictureReturn; split
  · exact (countWithheld_steady _ _ _ s).trans (sendUp_steady _ _ _)
  · exact ((checkLine_steady _ _ _ s).trans (movePictureFrontier_steady _ _ _)).trans (sendUp_steady _ _ _)

theorem soundReturn_steady (b : GainRamp) (txn : Nat) (x : Binding) (line : Line) (s : State) :
    Steady b s (soundReturn txn x line s) := by
  unfold soundReturn; split
  · exact (countWithheld_steady _ _ _ s).trans (sendUp_steady _ _ _)
  · exact .of_same rfl rfl

theorem pictureError_steady (b : GainRamp) (x : Binding) (s : State) : Steady b s (pictureError x s) := by
  unfold pictureError; split
  · exact .refl b s
  · split
    · exact setUnpack_steady (by simp)
    · exact .refl b s

/-! ### The Path Classifier and Cue Intake -/

theorem raiseAccess_steady (cause : AccessCause) (who : Originator) (x : Binding) (line : Nat) (s : State) :
    Steady s.sound.ramp s (raiseAccess cause who x line s) :=
  (raiseFault_steady s.sound.ramp .access (noteAccess cause who x.entry line s)).after rfl rfl

theorem forwardRead_steady (b : GainRamp) (line : Nat) (who : Originator) (x : Binding) (route : Route) (s : State) :
    Steady b s (forwardRead line who x route s) := by
  unfold forwardRead; dsimp only; rw [sendSides_eq]; exact .of_same rfl rfl

theorem readArrives_steady (line : Nat) (who : Originator) (x : Binding) (s : State) :
    Steady s.sound.ramp s (readArrives line who x s) := by
  unfold readArrives; split
  · exact (raiseAccess_steady _ _ _ _ (sendUp _ (takeTxn s))).after rfl rfl
  · have count : Steady s.sound.ramp s (countRaw x.kind s) := by unfold countRaw; split <;> exact .of_same rfl rfl
    exact count.trans (forwardRead_steady _ _ _ _ _ _)
  · exact forwardRead_steady _ _ _ _ _ s

theorem writeArrives_steady (line : Nat) (who : Originator) (data : Line) (enables : BitVec 64) (x : Binding) (s : State) :
    Steady s.sound.ramp s (writeArrives line who data enables x s) := by
  unfold writeArrives; split
  · exact .of_same rfl rfl
  · exact (raiseAccess_steady _ _ _ _ (sendUp _ (takeTxn s))).after rfl rfl

theorem joinDisplay_steady (b : GainRamp) (r : ReadInFlight) (s : State) : Steady b s (joinDisplay r s) := by
  unfold joinDisplay; split
  · split
    · unfold displayReturn; split <;> exact .of_same rfl rfl
    · exact .of_same rfl rfl
  · exact .of_same rfl rfl

theorem readReturns_steady (r : ReadInFlight) (ans : ReadAnswer) (s : State) :
    Steady s.sound.ramp s (readReturns r ans s) := by
  cases ans with
  | data line =>
    unfold readReturns readData; dsimp only; split
    · exact .of_same rfl rfl
    · exact .of_same rfl rfl
    · exact (pictureReturn_steady _ _ _ (dropRead r.txn s)).after rfl rfl
    · exact (soundReturn_steady _ _ _ _ _).after rfl rfl
    · exact joinDisplay_steady _ _ s
  | error =>
    unfold readReturns readError; dsimp only; split
    · exact (pictureError_steady _ _ _).after rfl rfl
    all_goals exact .of_same rfl rfl

theorem laneArrive_lowMark (playing : Bool) (p : Nat) (c : Cue) (x : Lane) : (laneArrive playing p c x).1.lowMark = x.lowMark := by
  have queued (y : Lane) : (laneArrive.arriveQueued playing p c y).1.lowMark = y.lowMark := by
    unfold laneArrive.arriveQueued; repeat' split
    all_goals rfl
  unfold laneArrive; split
  · split
    · rfl
    · exact queued x
  · exact queued x

theorem cueArrives_steady (lane : LaneId) (c : Cue) (s : State) : Steady s.sound.ramp s (cueArrives lane c s) := by
  have put := putLane_steady (lane := lane) s.sound.ramp
    (laneArrive_lowMark (isPlaying s) s.ctl.position c (cueLane s lane))
  unfold cueArrives; dsimp only; split
  · exact put.trans (raiseFault_steady _ _ _)
  · exact put

theorem cueToLane_steady (lane : LaneId) (c : Cue) (s : State) : Steady s.sound.ramp s (cueToLane lane c s) := by
  unfold cueToLane; split
  iterate 2 exact .of_same rfl rfl
  all_goals exact cueArrives_steady lane c s

theorem cueIntake_steady (data : Line) (enables : BitVec 64) (s : State) :
    Steady s.sound.ramp s (cueIntake data enables s) := by
  unfold cueIntake; dsimp only; split
  · exact .of_same rfl rfl
  · split
    · exact .of_same rfl rfl
    · unfold cueFiltered; split
      · exact .of_same rfl rfl
      all_goals exact (cueToLane_steady _ _ (countTaken s)).after rfl rfl

theorem writeCompletes_steady (w : WriteInFlight) (ok : Bool) (s : State) :
    Steady s.sound.ramp s (writeCompletes w ok s) := by
  unfold writeCompletes; dsimp only; split
  · exact (cueIntake_steady _ _ (sendUp _ (dropWrite w.txn s))).after rfl rfl
  · exact .of_same rfl rfl

/-! ### The show -/

theorem answer_steady (b : GainRamp) (r : LinkResult) (d : Nat) (s : State) : Steady b s (answer r d s) := .of_same rfl rfl

theorem showLoaded_steady (b : GainRamp) (w : ShowWrite) (s : State) : Steady b s (showLoaded w s) := by
  unfold showLoaded; dsimp only; split <;> exact .of_same rfl rfl

/-- A priming starts the ramp record at unity, of the ramp length parameter (R98). -/
theorem primeBlocks_steady (b : GainRamp) (s : State) : Steady b s (primeBlocks s) := by
  rw [primeBlocks_eq]; exact ⟨rfl, fun _ hl _ => ⟨Nat.le_refl _, hl⟩⟩

theorem showPrimed_steady (b : GainRamp) (r : ShowRecord) (s : State) : Steady b s (showPrimed r s) := by
  have primed : Steady b s (primeBlocks (primeCtl .full
      (commitUnitOf (totalDuration r) (slotLicence s.count.ram.licences[r.licenceSlot]).permille) s)) :=
    (primeBlocks_steady b _).after rfl rfl
  exact primed.trans (.of_same rfl rfl)

theorem previewPrimed_steady (b : GainRamp) (s : State) : Steady b s (previewPrimed s) := by
  have primed : Steady b s (primeBlocks (primeCtl .preview 0 s)) := (primeBlocks_steady b _).after rfl rfl
  exact primed.trans (.of_same rfl rfl)

theorem showStarted_steady (b : GainRamp) (s : State) : Steady b s (showStarted s) := by
  have leaves := (clockLeaves_steady b ((setShowState .running (s.setCtl { s.ctl with position := 0 })).setClock
    (clearClockCounts s.clock))).after (s := s) rfl rfl
  exact (leaves.trans (activateLanes_steady b 0 (showTotal s) _)).trans (answer_steady b _ _ _)

theorem showResumed_steady (s : State) : Steady s.sound.ramp s (showResumed s) := by
  have leaves := (clockLeaves_steady s.sound.ramp (setShowState .running s)).after (s := s) rfl rfl
  exact (leaves.trans (startRamp_steady _ .unity _)).trans (answer_steady _ _ _ _)

theorem withdrawShow_steady (b : GainRamp) (s : State) : Steady b s (withdrawShow s) :=
  (((withdraw_steady b .syncLoss s).trans (withdraw_steady b .pictureStarved _)).trans
    (withdraw_steady b .soundStarved _)).trans (withdraw_steady b .keyLapsed _)

theorem showStopped_steady (b : GainRamp) (s : State) : Steady b s (showStopped s) := by
  have release : Steady b s (releaseKeys s) := by
    unfold releaseKeys; split
    · split <;> exact .of_same rfl rfl
    · exact .refl b s
  have stop (t : State) : Steady b t (clockIdle (stopCtl t)) := .of_same rfl rfl
  have flush (t : State) : Steady b t (activateMask (flushLanes t)) := .of_same rfl rfl
  have clear (t : State) : Steady b t (clearSoundShow (clearUnpackShow t)) := .of_same rfl rfl
  have cleared := ((release.trans (stop _)).trans (flush _)).trans (clear _)
  have unreserved (t : State) : Steady b t (t.setCount { t.count with reserved := none }) := .of_same rfl rfl
  exact ((cleared.trans (unreserved _)).trans (withdrawShow_steady b _)).trans (answer_steady b _ _ _)

/-! ### The Count Store, the keys, the Supervisor -/

theorem loadRam_steady (b : GainRamp) (s : State) : Steady b s (loadRam s) := by
  unfold loadRam; dsimp only; split <;> exact .of_same rfl rfl

theorem storeCompletes_steady (b : GainRamp) (w : StoreWrite) (s : State) : Steady b s (storeCompletes w s) := by
  unfold storeCompletes afterWrite; split
  · unfold reloadIfDue; split
    · exact (loadRam_steady b _).after rfl rfl
    · exact .of_same rfl rfl
  · exact .of_same rfl rfl

theorem storeFails_steady (w : StoreWrite) (s : State) : Steady s.sound.ramp s (storeFails w s) := by
  have first := (raiseFault_steady s.sound.ramp .storeFail (failedStore w s)).after (s := s) rfl rfl
  unfold storeFails; dsimp only; split
  · exact first.trans (raiseFault_steady _ _ _)
  · exact first

theorem licenceDeleted_steady (b : GainRamp) (index : Fin 8) (s : State) : Steady b s (licenceDeleted index s) := by
  unfold licenceDeleted; split <;> exact .of_same rfl rfl

theorem expireKeys_steady (b : GainRamp) (s : State) : Steady b s (expireKeys s) := by
  unfold expireKeys; split <;> exact .of_same rfl rfl

theorem timeTrimmed_steady (b : GainRamp) (d : BitVec 16) (s : State) : Steady b s (timeTrimmed d s) := by
  have expired := (expireKeys_steady b (s.setSecure (trimmed (openYear s.secure)
    (appliedDelta (openYear s.secure) d.toInt)))).after (s := s) rfl rfl
  exact expired.trans (.of_same rfl rfl)

theorem clearKind_steady (b : GainRamp) (mask : BitVec 16) (s : State) (k : FaultKind) : Steady b s (clearKind mask s k) := by
  unfold clearKind; split
  · cases k <;> exact .of_same rfl rfl
  · exact .refl b s

theorem clearKinds_steady (b : GainRamp) (mask : BitVec 16) (kinds : List FaultKind) (s : State) :
    Steady b s (kinds.foldl (clearKind mask) s) := by
  induction kinds generalizing s with
  | nil => exact .refl b s
  | cons k kinds ih => exact (clearKind_steady b mask s k).trans (ih _)

theorem faultsCleared_steady (mask : BitVec 16) (s : State) : Steady s.sound.ramp s (faultsCleared mask s) := by
  have cleared := clearKinds_steady s.sound.ramp mask allKinds s
  unfold faultsCleared; dsimp only; refine .trans ?_ (answer_steady _ _ _ _); split
  · exact cleared.trans (outputReturned_steady _ _)
  · exact cleared

theorem watchdogFound_steady (b : GainRamp) (s : State) : Steady b s (watchdogFound s) := by
  unfold watchdogFound; split
  · exact withdraw_steady b _ s
  · exact .refl b s

theorem feed_steady (b : GainRamp) (s : State) : Steady b s (feed s) := by
  unfold feed; split
  · exact (watchdogFound_steady b s).trans (.of_same rfl rfl)
  · exact .refl b s

theorem watchdogExpires_steady (s : State) : Steady s.sound.ramp s (watchdogExpires s) :=
  (raiseCondition_steady _ _ _).after rfl rfl

end Sys2Proof.Machine
end

section
/-! SUPPORT. Proofs/Tables.lean: every step keeps the laws of the tables: the commands that write a setting, the resets, and all
the others (R3, R6, R21, R85, R91, R92, R97, R111, R145, R146, R154). -/

namespace Sys2Proof.Machine

theorem TablesKept.trans {s t u : State} (h : TablesKept s t) (g : TablesKept t u) : TablesKept s u :=
  ⟨fun r => g.1 (h.1 r), fun p => g.2 (h.2 p)⟩

/-! ### The Region Table -/

/-- The entry that a record makes has no field that its kind does not have (R3). -/
theorem entryOfWrite_fieldsKept (w : RegionWrite) : fieldsKept (entryOfWrite w) := by
  refine ⟨fun h => ?_, fun h => ?_, fun h => ?_, fun h => ?_⟩ <;> simp only [entryOfWrite] at h ⊢
  · exact if_neg (by simp [h])
  · exact if_neg h
  · exact ⟨if_neg (by simp [h]), if_neg (by simp [h]), if_neg (by simp [h])⟩
  · exact ⟨if_neg fun c => h c.1, by simp [h]⟩

theorem rangesMeet_comm (e f : RegionEntry) : rangesMeet e f = rangesMeet f e := Bool.and_comm _ _

/-- A VALID record that passes its checks makes a lawful entry, which shares a line with no other VALID entry. -/
theorem validChecks_lawful {index : Fin 24} {w : RegionWrite} {s : State} (h : ∀ c ∈ validChecks index w s, c.pass = true) :
    entryOk (entryOfWrite w) = true ∧ ∀ j : Fin 24, j ≠ index → s.path.regions[j].valid = true →
      rangesMeet (entryOfWrite w) s.path.regions[j] = false := by
  simp only [validChecks, List.forall_mem_cons] at h
  obtain ⟨-, size, reel, stride, geometry, overlap, -⟩ := h
  constructor
  · simp only [sizeOk] at size
    simp only [entryOk, size, reel, stride, geometry, Bool.and_self]
  · intro j hj hv
    have apart : (j == index || !s.path.regions[j].valid || !rangesMeet (entryOfWrite w) s.path.regions[j]) = true :=
      List.all_eq_true.mp overlap j (List.mem_finRange j)
    rw [hv] at apart
    simpa [hj] using apart

/-- A Region Table with a lawful entry written is lawful. -/
theorem regionsOk_vput {s t : State} {index : Fin 24} {e : RegionEntry}
    (written : t.path.regions = vput s.path.regions index e) (kept : fieldsKept e)
    (lawful : e.valid = true → entryOk e = true ∧
      ∀ j : Fin 24, j ≠ index → s.path.regions[j].valid = true → rangesMeet e s.path.regions[j] = false)
    (h : RegionsOk s) : RegionsOk t := by
  unfold RegionsOk
  rw [written]
  intro i
  by_cases hi : index = i
  · subst hi
    rw [vput_get_self]
    refine ⟨kept, fun v => ⟨(lawful v).1, fun j hj => ?_⟩⟩
    rw [vput_get_other _ _ hj.symm]
    exact (lawful v).2 j hj
  · rw [vput_get_other _ _ hi]
    obtain ⟨fields, valid⟩ := h i
    refine ⟨fields, fun v => ⟨(valid v).1, fun j hj => ?_⟩⟩
    by_cases hji : index = j
    · subst hji
      rw [vput_get_self]
      exact fun ve => (rangesMeet_comm _ _).trans ((lawful ve).2 i (Ne.symm hi) v)
    · rw [vput_get_other _ _ hji]
      exact (valid v).2 j hj

theorem regionWritten_tables {index : Fin 24} {w : RegionWrite} {s : State}
    (h : firstFailure (regionChecks index w s) = none) : TablesKept s (regionWritten index w s) := by
  have checks := firstFailure_none.mp h
  refine ⟨regionsOk_vput (index := index) rfl (entryOfWrite_fieldsKept w) fun valid => ?_, id⟩
  refine validChecks_lawful fun c hc => checks c ?_
  have v : w.valid = true := valid
  rw [regionChecks, if_pos v]
  exact List.mem_cons_of_mem _ hc

/-! ### The parameters -/

theorem clockWritten_tables {window : BitVec 16} {loss : Byte} {s : State}
    (h : firstFailure (clockChecks window loss s) = none) :
    TablesKept s (s.setClock { s.clock with window := window.toNat, lossLimit := loss.toNat }) := by
  have checks := firstFailure_none.mp h
  simp only [clockChecks, List.forall_mem_cons, Bool.and_eq_true, decide_eq_true_eq] at checks
  obtain ⟨-, ⟨⟨⟨low, high⟩, one⟩, fifteen⟩, -⟩ := checks
  exact ⟨id, fun ⟨_, _, rest⟩ => ⟨⟨low, high⟩, ⟨one, fifteen⟩, rest⟩⟩

theorem lowMarkWritten_tables {lane : LaneId} {mark : Nat} (h : mark ≤ 15) (s : State) :
    TablesKept s (putLane lane { cueLane s lane with lowMark := mark } s) := by
  cases lane with
  | a => exact ⟨id, fun ⟨c, l, p, q, r, g, n, _, b, rest⟩ => ⟨c, l, p, q, r, g, n, h, b, rest⟩⟩
  | b => exact ⟨id, fun ⟨c, l, p, q, r, g, n, a, _, rest⟩ => ⟨c, l, p, q, r, g, n, a, h, rest⟩⟩

theorem watchdogWritten_tables {interval : Nat} (h : interval = 1 ∨ interval = 2 ∨ interval = 5 ∨ interval = 10)
    (enabled : Bool) (s : State) : TablesKept s (watchdogWritten enabled interval s) := by
  have set (w : Watchdog) (hw : w.interval = interval) (t : State) : TablesKept t (setWatchdog w t) :=
    ⟨id, fun ⟨c, l, p, q, r, g, n, a, b, _, rest⟩ => ⟨c, l, p, q, r, g, n, a, b, by subst hw; exact h, rest⟩⟩
  unfold watchdogWritten; split
  · exact set _ rfl s
  · exact (watchdogFound_steady _ s).tables.trans (set _ rfl _)

/-- A policy entry in range, written, keeps every entry in range (R145, R146). -/
theorem putPolicy_tables {k : FaultKind} {e : PolicyEntry} (allowed : policyAllowed k e.policy = true)
    (blank : 1 ≤ e.blank ∧ e.blank ≤ 255) (s : State) : TablesKept s (putPolicy k e s) := by
  refine ⟨id, fun ⟨c, l, p, q, r, g, n, a, b, i, entries⟩ => ⟨c, l, p, q, r, g, n, a, b, i, fun m => ?_⟩⟩
  have entry : policyOfKind (putPolicy k e s) m = if k = m then e else policyOfKind s m := by
    simp only [policyOfKind, putPolicy, setSup_sup, vput_get]
    by_cases hk : k = m
    · rw [if_pos hk, if_pos (hk ▸ rfl)]
    · rw [if_neg hk, if_neg fun c => hk (faultIndex_injective c)]
  rw [entry]
  split
  · next hk => subst hk; exact ⟨allowed, blank⟩
  · exact entries m

theorem limitOk_iff (b : Byte) : limitOk b = true ↔ 1 ≤ b.toNat ∧ b.toNat ≤ 8 := by simp [limitOk]

theorem intervalOk_iff (b : Byte) :
    intervalOk b = true ↔ b.toNat = 1 ∨ b.toNat = 2 ∨ b.toNat = 5 ∨ b.toNat = 10 := by simp [intervalOk, or_assoc]

/-- The further fields of a record that pass their check are in range (R85, R92, R97, R154). -/
theorem writeFurther_tables {k : FaultKind} {w : PolicyWrite} (h : furtherOk k w = true) (s : State) :
    TablesKept s (writeFurther k w s) := by
  cases k with
  | pictureStarved =>
    have limit := (limitOk_iff _).mp h
    exact ⟨id, fun ⟨c, l, _, rest⟩ => ⟨c, l, limit, rest⟩⟩
  | soundStarved =>
    obtain ⟨limit, length⟩ := Bool.and_eq_true_iff.mp h
    have range := (limitOk_iff _).mp limit
    have short := of_decide_eq_true length
    exact ⟨id, fun ⟨c, l, p, _, _, rest⟩ => ⟨c, l, p, range, short, rest⟩⟩
  | watchdog => exact watchdogWritten_tables ((intervalOk_iff _).mp h) _ s
  | _ => exact ⟨id, id⟩

theorem policyByteOk_allowed {k : FaultKind} {w : PolicyWrite} (h : policyByteOk k w.policy = true) :
    policyAllowed k (policyEntryOf w).policy = true := by
  unfold policyByteOk at h
  unfold policyEntryOf
  split at h
  · next p hp => rw [hp]; exact h
  · exact absurd h Bool.false_ne_true

theorem policyWritten_tables {k : FaultKind} {w : PolicyWrite} {s : State}
    (h : firstFailure (policyChecks k w) = none) :
    TablesKept s (writeFurther k w (putPolicy k (policyEntryOf w) s)) := by
  have checks := firstFailure_none.mp h
  simp only [policyChecks, List.forall_mem_cons, Bool.and_eq_true, decide_eq_true_eq] at checks
  obtain ⟨policy, blank, further, -⟩ := checks
  exact (putPolicy_tables (policyByteOk_allowed policy) blank s).trans (writeFurther_tables further _)

/-! ### Resets -/

theorem regionsOk_reset : RegionsOk State.reset := by
  intro i
  have empty : State.reset.path.regions[i] = {} := Vector.getElem_replicate _
  rw [empty]
  exact ⟨⟨fun _ => rfl, fun _ => rfl, fun _ => ⟨rfl, rfl, rfl⟩, fun _ => ⟨rfl, rfl⟩⟩, fun v => absurd v Bool.false_ne_true⟩

theorem parametersOk_reset : ParametersOk State.reset := by
  refine ⟨?_, ?_, ?_, ?_, ?_, ?_, ?_, ?_, ?_, ?_, fun k => ?_⟩
  case refine_11 => cases k <;> decide
  all_goals decide

/-- A state whose settings and gain ramp record are those of the reset state meets both laws. -/
theorem tables_of_reset {s t : State} (e : settingsOf t = settingsOf State.reset) (r : t.sound.ramp = {}) : TablesKept s t :=
  ⟨fun _ => regionsOk_reset.of_regions (congrArg Settings.regions e),
    fun _ => parametersOk_reset.of_settings e (r ▸ parametersOk_reset.ramp.2)⟩

theorem boothResetAll_settings (s : State) :
    settingsOf (boothResetAll s) = settingsOf State.reset ∧ (boothResetAll s).sound.ramp = {} := by
  unfold boothResetAll resetCount; dsimp only; split
  · unfold loadRam; dsimp only; split <;> exact ⟨rfl, rfl⟩
  all_goals exact ⟨rfl, rfl⟩

theorem reset_tables (s : State) : TablesKept s (answer .ok 0 (boothResetAll s)) :=
  tables_of_reset (boothResetAll_settings s).1 (boothResetAll_settings s).2

theorem boothReset_tables (midTransfer : Option Nat) (s : State) :
    TablesKept s (cutTransfer midTransfer (boothResetAll s)) :=
  tables_of_reset (boothResetAll_settings s).1 (boothResetAll_settings s).2

theorem powerOnReset_tables (supplyHeld readable : Bool) (straps : BitVec 2) (s : State) :
    TablesKept s (if readable then loadRam (powerBlocks supplyHeld readable straps s)
      else powerBlocks supplyHeld readable straps s) := by
  have powered : TablesKept s (powerBlocks supplyHeld readable straps s) := tables_of_reset rfl rfl
  split
  · exact powered.trans (loadRam_steady _ _).tables
  · exact powered

/-! ### Events and requests -/

theorem TablesKept.refl (s : State) : TablesKept s s := ⟨id, id⟩

theorem whenOn_tables {s : State} {f : State → State} (h : TablesKept (quiet s) (f (quiet s))) : TablesKept s (whenOn s f) :=
  whenOn_keeps ⟨id, id⟩ h

theorem onLink_tables {n : Nat} {s : State} {f : State → State} (h : TablesKept (quiet s) (f (quiet s))) :
    TablesKept s (onLink n s f) := onLink_keeps ⟨id, id⟩ h fun _ k => ⟨k.1, k.2⟩

theorem checked_tables {checks : List Check} {accept : State → State} {s : State}
    (h : firstFailure checks = none → TablesKept s (accept s)) : TablesKept s (checked checks accept s) :=
  checked_keeps h fun _ _ => ⟨id, id⟩

/-- A request that, carried out, writes no setting. -/
theorem request_tables {n : Nat} {s : State} {checks : State → List Check} {accept : State → State}
    (h : Steady s.sound.ramp (quiet s) (accept (quiet s))) :
    TablesKept s (onLink n s fun s => checked (checks s) accept s) :=
  onLink_tables (checked_tables fun _ => h.tables)

/-- An event whose effect comes only when it is due keeps what its effect keeps. -/
theorem due_tables {s : State} {due : State → Bool} {f : State → State} (h : Steady s.sound.ramp (quiet s) (f (quiet s))) :
    TablesKept s (whenOn s fun s => if due s then f s else s) := by
  apply whenOn_tables; split
  · exact h.tables
  · exact ⟨id, id⟩

/-! ### Every command -/

/-- Every command has a next state, which keeps both laws. -/
theorem exec_tables (c : Instr) (s : State) : ∃ t, exec c s = .next t ∧ TablesKept s t := by
  cases c with
  | lineRead addr who => exact ⟨_, rfl, whenOn_tables (readArrives_steady _ _ _ (quiet s)).tables⟩
  | lineWrite addr who data enables => exact ⟨_, rfl, whenOn_tables (writeArrives_steady _ _ _ _ _ (quiet s)).tables⟩
  | readReturn txn ans =>
    refine ⟨_, rfl, whenOn_tables ?_⟩; split
    · exact (readReturns_steady _ _ (quiet s)).tables
    · exact .refl _
  | sideReadReturn txn lane ans =>
    refine ⟨_, rfl, whenOn_tables ?_⟩; split
    · exact (joinDisplay_steady _ _ (quiet s)).tables
    · exact .refl _
  | writeCompletion txn ok =>
    refine ⟨_, rfl, whenOn_tables ?_⟩; split
    · exact (writeCompletes_steady _ _ (quiet s)).tables
    · exact .refl _
  | fsyncInEdge =>
    refine ⟨_, rfl, whenOn_tables ?_⟩; split
    · exact .refl _
    · exact (clockEdge_steady (quiet s)).tables
  | windowExpiry => exact ⟨_, rfl, due_tables (miss_steady (quiet s))⟩
  | anchorTimeout => exact ⟨_, rfl, due_tables (anchorExpires_steady (quiet s))⟩
  | internalExpiry => exact ⟨_, rfl, due_tables (internalExpires_steady (quiet s))⟩
  | loadShow w => exact ⟨_, rfl, request_tables (showLoaded_steady _ w (quiet s))⟩
  | prime =>
    refine ⟨_, rfl, onLink_tables ?_⟩; split
    · exact .refl _
    · exact checked_tables fun _ => (showPrimed_steady _ _ (quiet s)).tables
  | primePreview => exact ⟨_, rfl, request_tables (previewPrimed_steady _ (quiet s))⟩
  | start => exact ⟨_, rfl, request_tables (showStarted_steady _ (quiet s))⟩
  | hold => exact ⟨_, rfl, request_tables ((holdShow_steady _ (quiet s)).trans (answer_steady _ _ _ _))⟩
  | resume => exact ⟨_, rfl, request_tables (showResumed_steady (quiet s))⟩
  | stop => exact ⟨_, rfl, request_tables (showStopped_steady _ (quiet s))⟩
  | unload => exact ⟨_, rfl, request_tables (.of_same rfl rfl)⟩
  | regionRecord index w => exact ⟨_, rfl, onLink_tables (checked_tables regionWritten_tables)⟩
  | loadKey index blob check => exact ⟨_, rfl, request_tables (.of_same rfl rfl)⟩
  | purgeKey index => exact ⟨_, rfl, request_tables (.of_same rfl rfl)⟩
  | keyExpiry index => exact ⟨_, rfl, due_tables (.of_same rfl rfl)⟩
  | secureTick =>
    refine ⟨_, rfl, ?_⟩; split
    · dsimp only; split
      · exact (expireKeys_steady _ ((quiet s).setSecure _)).tables
      · exact .refl _
    · exact .refl _
  | trimYearClose => refine ⟨_, rfl, ?_⟩; split <;> exact .refl _
  | setTime t => exact ⟨_, rfl, request_tables (.of_same rfl rfl)⟩
  | trimTime d => exact ⟨_, rfl, request_tables (timeTrimmed_steady _ d (quiet s))⟩
  | loadLicence index blob check => exact ⟨_, rfl, request_tables (.of_same rfl rfl)⟩
  | deleteLicence index => exact ⟨_, rfl, request_tables (licenceDeleted_steady _ index (quiet s))⟩
  | popLog seq => exact ⟨_, rfl, request_tables (.of_same rfl rfl)⟩
  | setScreen id => exact ⟨_, rfl, request_tables (.of_same rfl rfl)⟩
  | storeWriteCompletion =>
    refine ⟨_, rfl, whenOn_tables ?_⟩; split
    · exact (storeCompletes_steady _ _ (quiet s)).tables
    all_goals exact .refl _
  | storeWriteFailure =>
    refine ⟨_, rfl, whenOn_tables ?_⟩; split
    · exact (storeFails_steady _ (quiet s)).tables
    all_goals exact .refl _
  | clearFaults mask => exact ⟨_, rfl, onLink_tables (faultsCleared_steady mask (quiet s)).tables⟩
  | tickle => exact ⟨_, rfl, onLink_tables (feed_steady _ (quiet s)).tables⟩
  | wdTick =>
    refine ⟨_, rfl, whenOn_tables ?_⟩; split
    · exact .refl _
    · exact Steady.tables (s := quiet s) ((feed_steady _ _).after rfl rfl)
  | watchdogExpiry => exact ⟨_, rfl, due_tables (watchdogExpires_steady (quiet s))⟩
  | setMute mask => exact ⟨_, rfl, onLink_tables (.refl _)⟩
  | laneEnable bits => exact ⟨_, rfl, onLink_tables (.refl _)⟩
  | ackEvents mask => exact ⟨_, rfl, onLink_tables (.refl _)⟩
  | reset => exact ⟨_, rfl, onLink_tables (reset_tables _)⟩
  | boothReset midTransfer =>
    refine ⟨_, rfl, ?_⟩; dsimp only; split
    · exact boothReset_tables midTransfer ((quiet s).setPower _)
    · exact .refl _
  | brstNRelease => exact ⟨_, rfl, .refl _⟩
  | powerOnReset supplyHeld readable straps => exact ⟨_, rfl, powerOnReset_tables supplyHeld readable straps s⟩
  | writeFilter index w =>
    refine ⟨_, rfl, onLink_tables ?_⟩; split <;> exact .refl _
  | writeDefaultAction action =>
    refine ⟨_, rfl, onLink_tables ?_⟩; split <;> exact .refl _
  | writeLowMark lane mark =>
    refine ⟨_, rfl, onLink_tables (checked_tables fun h => ?_)⟩
    exact lowMarkWritten_tables (of_decide_eq_true (firstFailure_none.mp h _ List.mem_cons_self)) (quiet s)
  | writePolicy kind w => exact ⟨_, rfl, onLink_tables (checked_tables policyWritten_tables)⟩
  | writeEvents enables selects => exact ⟨_, rfl, onLink_tables (.refl _)⟩
  | writeClock window lossLimit => exact ⟨_, rfl, onLink_tables (checked_tables clockWritten_tables)⟩
  | readRecord table index =>
    refine ⟨_, rfl, onLink_tables ?_⟩; split <;> exact .refl _
  | readTransfer count => exact ⟨_, rfl, onLink_tables (.refl _)⟩
  | badCrc packet => refine ⟨_, rfl, onLink_tables ?_⟩; split <;> exact .refl _
  | badLengthTruncated staged => refine ⟨_, rfl, onLink_tables ?_⟩; split <;> exact .refl _
  | unrecognisedPacket op table index data =>
    refine ⟨_, rfl, onLink_tables ?_⟩; split
    · unfold dispatchRefused; split <;> exact .refl _
    · exact .refl _
  | lossOfPower backupFails => exact ⟨_, rfl, .refl _⟩

theorem idle_tables (s : State) : TablesKept s (idle s) := by
  unfold idle; split <;> exact .refl _

/-- Settles O56: a step is an idle microsecond or a command, and each keeps both laws. -/
theorem stepsKeepTheTables : Obligations.StepsKeepTheTables := by
  unfold Obligations.StepsKeepTheTables
  intro s t h
  unfold step at h
  split at h
  · exact Host.Outcome.next.inj h ▸ idle_tables s
  · next c rest _ =>
    obtain ⟨u, hu, kept⟩ := exec_tables c (s.setPending rest)
    exact Host.Outcome.next.inj (hu.symm.trans h) ▸ kept

end Sys2Proof.Machine
end

section
/-! SUPPORT. Proofs/Arrivals.lean: the arrivals of reads and writes: the rows of Table 1-1, what a line is bound to, what is
forwarded and what is refused (R4, R9 to R11, R13 to R17, R117 to R119). -/

namespace Sys2Proof.Machine

/-! ### Routes (Table 1-1) -/

theorem isPadding_iff (b : Binding) :
    isPadding b = true ↔ b.height * b.pitch ≤ b.offset ∨ b.width / 16 ≤ b.offset % b.pitch := by
  simp [isPadding]

theorem readRoute_plain {b : Binding} (h : b.kind = .openMemory ∨ b.kind = .plane ∨ b.kind = .cue) (who : Originator) :
    readRoute b who = some .plain := by
  rcases h with h | h | h <;> simp [readRoute, h]

theorem readRoute_picture {b : Binding} (h : b.kind = .pictureEssence) (who : Originator) :
    readRoute b who = some (if who = .decode then .picture else .raw) := by simp [readRoute, h]

theorem readRoute_sound {b : Binding} (h : b.kind = .soundEssence) (who : Originator) :
    readRoute b who = some (if who = .audio then .sound else .raw) := by simp [readRoute, h]

theorem readRoute_padding {b : Binding} (h : b.kind = .frame) (p : isPadding b = true) (who : Originator) :
    readRoute b who = some .plain := by simp [readRoute, h, p]

theorem readRoute_frame {b : Binding} (h : b.kind = .frame) (p : isPadding b = false) (who : Originator) :
    readRoute b who =
      if who = .scan then some .display else if b.isProtected ∧ who ≠ .decode then none else some .plain := by
  simp [readRoute, h, p]

/-- Settles O4, by the rows of Table 1-1. -/
theorem readRoutesFollowTheTable : Obligations.ReadRoutesFollowTheTable := by
  unfold Obligations.ReadRoutesFollowTheTable
  intro b who
  refine ⟨fun h => readRoute_plain h who, fun h => ?_, fun h => ?_, isPadding_iff b, fun h p => readRoute_padding h p who,
    fun h p => ⟨?_, fun open_ hs => ?_, fun closed => ⟨?_, fun hd hs => ?_⟩⟩⟩
  · exact ⟨by rw [readRoute_picture h, if_pos rfl], fun hd => by rw [readRoute_picture h, if_neg hd]⟩
  · exact ⟨by rw [readRoute_sound h, if_pos rfl], fun ha => by rw [readRoute_sound h, if_neg ha]⟩
  · rw [readRoute_frame h p, if_pos rfl]
  · rw [readRoute_frame h p, if_neg hs, if_neg (by simp [open_])]
  · rw [readRoute_frame h p, if_neg (by decide), if_neg (by simp)]
  · rw [readRoute_frame h p, if_neg hs, if_pos ⟨closed, hd⟩]

/-! ### What a line is bound to (R4) -/

/-- An entry is VALID and holds a line. -/
def Holds (regions : Vector RegionEntry 24) (line : Nat) (i : Fin 24) : Prop :=
  regions[i].valid = true ∧ regions[i].base ≤ line ∧ line < regions[i].base + regions[i].size

theorem entryMatches_iff (e : RegionEntry) (line : Nat) :
    entryMatches e line = true ↔ e.valid = true ∧ e.base ≤ line ∧ line < e.base + e.size := by
  simp [entryMatches, and_assoc]

theorem lookupBinding_none {regions : Vector RegionEntry 24} {line : Nat} (h : ∀ i, ¬ Holds regions line i) :
    lookupBinding regions line = openBinding line := by
  have miss : (List.finRange 24).find? (fun i => entryMatches regions[i] line) = none :=
    List.find?_eq_none.mpr fun i _ m => h i ((entryMatches_iff _ _).mp m)
  simp only [lookupBinding, miss]

theorem lookupBinding_unique {regions : Vector RegionEntry 24} {line : Nat} {i : Fin 24} (h : Holds regions line i)
    (unique : ∀ j, Holds regions line j → j = i) : lookupBinding regions line = bindingOf i regions[i] line := by
  unfold lookupBinding
  split
  · next j found =>
    have held : entryMatches regions[j] line = true := List.find?_some (p := fun i => entryMatches regions[i] line) found
    rw [unique j ((entryMatches_iff _ _).mp held)]
  · next miss =>
    exact absurd ((entryMatches_iff _ _).mpr h) (List.find?_eq_none.mp miss i (List.mem_finRange i))

theorem classify_low {s : State} (h : s.power.brstLow = true) (line : Nat) : classify s line = openBinding line := by
  simp [classify, h]

theorem classify_high {s : State} (h : s.power.brstLow = false) (line : Nat) :
    classify s line = lookupBinding s.path.regions line := by simp [classify, h]

theorem classify_unmatched {s : State} {line : Nat} (h : ∀ i, ¬ Holds s.path.regions line i) :
    classify s line = openBinding line := by
  cases b : s.power.brstLow
  · rw [classify_high b, lookupBinding_none h]
  · exact classify_low b line

/-- A lawful table has at most one entry that holds a line (R6). -/
theorem holds_unique {s : State} (h : RegionsOk s) {line : Nat} {i j : Fin 24} (hi : Holds s.path.regions line i)
    (hj : Holds s.path.regions line j) : j = i := by
  by_contra n
  obtain ⟨vi, li, ui⟩ := hi
  obtain ⟨vj, lj, uj⟩ := hj
  have apart := ((h i).2 vi).2 j n vj
  simp only [rangesMeet, Bool.and_eq_false_iff, decide_eq_false_iff_not] at apart
  omega

/-! ### What a display read names (R117 to R119) -/

theorem isPlane_iff (e : RegionEntry) : isPlane e = true ↔ e.valid = true ∧ e.kind = .plane := by simp [isPlane]

theorem windowCovers_iff (c : Cue) (y g : Nat) :
    windowCovers c y g = true ↔ (c.y0 ≤ y ∧ y < c.y0 + c.h) ∧ c.x0 ≤ 16 * g ∧ 16 * g < c.x0 + c.w := by
  simp [windowCovers, and_assoc]

/-- A cue is drawn when its lane is enabled or it is forced (R118). -/
theorem cueDrawn_iff (s : State) (lane : LaneId) (c : Cue) : cueDrawn (laneEnabled s lane) c = true ↔
    (match lane with | .a => s.overlay.enableA | .b => s.overlay.enableB) = true ∨ c.forced = true := by
  cases lane <;> simp [cueDrawn, laneEnabled]

theorem nameLane_none {s : State} {lane : LaneId} (h : (cueLane s lane).active = none) (b : Binding) :
    nameLane s b lane = none := by simp [nameLane, h]

theorem nameLane_some {s : State} {lane : LaneId} {a : ActiveCue} (h : (cueLane s lane).active = some a) (b : Binding) :
    nameLane s b lane =
      if cueDrawn (laneEnabled s lane) a.cue && windowCovers a.cue (b.offset / b.pitch) (b.offset % b.pitch) then
        nameCue s lane a.cue (b.offset / b.pitch) (b.offset % b.pitch)
      else none := by simp [nameLane, h]

/-- The plane line that a covered line's pixels map to, its row and group worked in whole numbers (R119). -/
theorem nameCue_plane {s : State} {c : Cue} (h : isPlane s.path.regions[c.plane] = true) (lane : LaneId) {y g yp gp : Nat}
    (hy : c.y0 ≤ y) (hg : c.x0 ≤ 16 * g) (row : (yp : Int) = c.py + y - c.y0)
    (group : 16 * (gp : Int) = (c.px : Int) - c.x0 + 16 * g) :
    nameCue s lane c y g =
      if yp < s.path.regions[c.plane].height ∧ 16 * gp < s.path.regions[c.plane].width then
        some { side := { entry := drawEntryOf lane c, status := .awaited }
               sent := some (s.path.regions[c.plane].base + (yp * s.path.regions[c.plane].pitch + gp)) }
      else none := by
  have row' : planeRow c y = yp := by unfold planeRow; omega
  have group' : planeGroup c g = gp := by unfold planeGroup; omega
  simp only [nameCue, if_pos h, row', group']

theorem nameCue_no_plane {s : State} {c : Cue} (h : ¬ isPlane s.path.regions[c.plane] = true) (lane : LaneId) (y g : Nat) :
    nameCue s lane c y g = some { side := { entry := drawEntryOf lane c, status := .failed }, sent := none } := by
  simp only [nameCue, if_neg h]

/-! ### Reads that are forwarded -/

/-- A forwarded read: in flight with its binding and route, and sent with the side reads that it names. -/
theorem forwardRead_eq (line : Nat) (who : Originator) (b : Binding) (route : Route) (s : State) :
    forwardRead line who b route s = { s with
      path := { s.path with
        reads := s.path.reads ++
          [{ txn := s.path.nextTxn, line := line, who := who, binding := b, route := route, frame := none,
             sides := (sidesFor s b route).map (·.side) }]
        nextTxn := s.path.nextTxn + 1 }
      out := { s.out with
        down := s.out.down ++
          .read s.path.nextTxn line who :: sideMessages s.path.nextTxn (sidesFor s b route) } } := by
  unfold forwardRead
  rw [sendSides_eq]
  simp [State.setOut, sendDown, takeTxn, State.setPath]

theorem sidesFor_eq (s : State) (b : Binding) (route : Route) :
    sidesFor s b route = if route = .display then nameSides s b else [] := by cases route <;> rfl

/-- A raw read moves the count of its region's kind, and nothing else (R10). -/
theorem countRaw_eq (kind : RegionKind) (s : State) : countRaw kind s = { s with
    path := { s.path with
      rawPicture := if kind = .pictureEssence then Nat.min (s.path.rawPicture + 1) 4294967295 else s.path.rawPicture
      rawSound := if kind = .soundEssence then Nat.min (s.path.rawSound + 1) 4294967295 else s.path.rawSound } } := by
  cases kind <;> rfl

theorem readArrives_raw {b : Binding} {who : Originator} (h : readRoute b who = some .raw) (line : Nat) (s : State) :
    readArrives line who b s = forwardRead line who b .raw (countRaw b.kind s) := by simp [readArrives, h]

theorem readArrives_route {b : Binding} {who : Originator} {route : Route} (h : readRoute b who = some route)
    (n : route ≠ .raw) (line : Nat) (s : State) : readArrives line who b s = forwardRead line who b route s := by
  cases route
  case raw => exact absurd rfl n
  all_goals simp [readArrives, h]

theorem readArrives_none {b : Binding} {who : Originator} (h : readRoute b who = none) (line : Nat) (s : State) :
    readArrives line who b s = answerBlack line who b s := by simp [readArrives, h]

theorem exec_lineRead {s : State} (h : s.power.on = true) (addr : BitVec 40) (who : Originator) :
    exec (.lineRead addr who) s =
      .next (readArrives (addr.toNat / 64) who (classify s (addr.toNat / 64)) (quiet s)) := by
  show Host.Outcome.next (whenOn s _) = _
  rw [whenOn_on h]; rfl

theorem exec_lineWrite {s : State} (h : s.power.on = true) (addr : BitVec 40) (who : Originator) (data : Line)
    (enables : BitVec 64) : exec (.lineWrite addr who data enables) s =
      .next (writeArrives (addr.toNat / 64) who data enables (classify s (addr.toNat / 64)) (quiet s)) := by
  show Host.Outcome.next (whenOn s _) = _
  rw [whenOn_on h]; rfl

/-- Settles O5: the forwarding, the naming of a display read, and the lookup. -/
theorem lineReadIsForwarded : Obligations.LineReadIsForwarded := by
  unfold Obligations.LineReadIsForwarded
  refine ⟨fun addr who s route on hr => ?_, fun s b => ⟨rfl, fun lane => ⟨fun h => nameLane_none h b, fun a ha => ?_⟩⟩,
    fun s line => ⟨fun h => classify_low h line, fun h => classify_unmatched h, fun h i hi unique => ?_,
      fun h i j hi hj => holds_unique h hi hj⟩⟩
  · rw [exec_lineRead on]
    by_cases raw : route = .raw
    · subst raw
      rw [readArrives_raw hr, forwardRead_eq, countRaw_eq]
      simp [sidesFor, sideMessages, quiet, State.setOut]
    · rw [readArrives_route hr raw, forwardRead_eq, sidesFor_eq]
      simp only [raw, false_and, if_false]
      rfl
  · rw [nameLane_some ha]
    refine ⟨fun h => if_neg fun c => ?_, fun hd hc => ?_⟩
    · obtain ⟨hd, hc⟩ := Bool.and_eq_true_iff.mp c
      rcases h with h | h
      · exact h ((cueDrawn_iff s lane a.cue).mp hd)
      · exact h ((windowCovers_iff _ _ _).mp hc)
    · have shown := Bool.and_eq_true_iff.mpr ⟨(cueDrawn_iff s lane a.cue).mpr hd, (windowCovers_iff _ _ _).mpr hc⟩
      rw [if_pos shown]
      exact ⟨fun plane yp gp row group => nameCue_plane ((isPlane_iff _).mpr plane) lane hc.1.1 hc.2.1 row group,
        fun n => nameCue_no_plane (fun c => n ((isPlane_iff _).mp c)) lane _ _⟩
  · rw [classify_high h, lookupBinding_unique hi unique]; rfl

/-! ### Writes that are forwarded -/

theorem mayWrite_eq (b : Binding) (who : Originator) : mayWrite b who = b.writers.getLsbD (match who with
    | .proc => 0 | .ingest => 1 | .decode => 2 | .scan => 3 | .audio => 4 | .aux0 => 5 | .aux1 => 6 | .aux2 => 7) := by
  cases who <;> rfl

/-- An address that no entry matches is open to every originator (R4). -/
theorem mayWrite_openBinding (line : Nat) (who : Originator) : mayWrite (openBinding line) who = true := by
  cases who <;> simp [mayWrite, openBinding, originatorTag]

theorem writeArrives_allowed {b : Binding} {who : Originator} (h : mayWrite b who = true) (line : Nat) (data : Line)
    (enables : BitVec 64) (s : State) :
    writeArrives line who data enables b s = forwardWrite line who b data enables s := if_pos h

theorem writeArrives_refused {b : Binding} {who : Originator} (h : mayWrite b who = false) (line : Nat) (data : Line)
    (enables : BitVec 64) (s : State) : writeArrives line who data enables b s = refuseWrite line who b s := by
  simp [writeArrives, h]

/-- Settles O7: a write by a member of the mask goes down as it came. -/
theorem lineWriteIsForwarded : Obligations.LineWriteIsForwarded := by
  unfold Obligations.LineWriteIsForwarded
  refine ⟨fun addr who data enables s on => ⟨fun unmatched => ?_, fun allowed => ?_⟩, mayWrite_eq⟩
  · rw [classify_unmatched unmatched]
    exact ⟨rfl, mayWrite_openBinding _ who⟩
  · rw [exec_lineWrite on, writeArrives_allowed allowed]; rfl

/-! ### Accesses that are refused -/

/-- A raise under REPORT: counted, the flag and the FAULT event set (R147). -/
theorem raiseFault_report {k : FaultKind} {s : State} (h : (policyOfKind s k).policy = .report) (b : GainRamp) :
    raiseFault b k s = flaggedState k s := by
  simp only [raiseFault, h, flagFault_countRaise]

/-- A raise under IGNORE is counted (R147). -/
theorem raiseFault_ignore {k : FaultKind} {s : State} (h : (policyOfKind s k).policy = .ignore) (b : GainRamp) :
    raiseFault b k s = countRaise k s := by
  simp only [raiseFault, h]

/-- The access record that a refused access leaves: filled, or its further raises counted (R16). -/
def accessNoted (cause : AccessCause) (who : Originator) (region : Option (Fin 24)) (line : Nat) :
    Option AccessRecord → AccessRecord
  | none => { cause := cause, who := who, region := region, line := line, further := 0 }
  | some r => { r with further := Nat.min (r.further + 1) 65535 }

/-- The state after an access is refused: answered with `msg`, and raised, `flagged` under REPORT (R16, R147). -/
def accessRaised (cause : AccessCause) (who : Originator) (b : Binding) (line : Nat) (msg : UpMsg) (flagged : Bool)
    (s : State) : State :=
  { s with
    path := { s.path with
      nextTxn := s.path.nextTxn + 1
      access := some (accessNoted cause who b.entry line s.path.access) }
    sup := { s.sup with
      faults := vput s.sup.faults (faultIndex .access) { (faultOf s .access) with
        raises := Nat.min ((faultOf s .access).raises + 1) 255, flag := (faultOf s .access).flag || flagged } }
    link := if flagged then { s.link with eventPending := s.link.eventPending ||| 1#7 } else s.link
    out := { up := [msg] } }

theorem noteAccess_eq (cause : AccessCause) (who : Originator) (region : Option (Fin 24)) (line : Nat) (s : State) :
    noteAccess cause who region line s =
      s.setPath { s.path with access := some (accessNoted cause who region line s.path.access) } := by
  unfold noteAccess
  cases s.path.access <;> rfl

theorem raiseAccess_report {s : State} (h : (policyOfKind s .access).policy = .report) (cause : AccessCause)
    (who : Originator) (b : Binding) (line : Nat) (msg : UpMsg) :
    raiseAccess cause who b line (sendUp msg (takeTxn (quiet s))) = accessRaised cause who b line msg true s := by
  have entry (e : FaultEntry) : flaggedEntry .access e =
      { e with raises := Nat.min (e.raises + 1) 255, flag := e.flag || true } := by simp [flaggedEntry, isConditionKind]
  rw [raiseAccess, noteAccess_eq, raiseFault_report]
  · unfold flaggedState modFault
    rw [entry]; rfl
  · exact h

theorem raiseAccess_ignore {s : State} (h : (policyOfKind s .access).policy = .ignore) (cause : AccessCause)
    (who : Originator) (b : Binding) (line : Nat) (msg : UpMsg) :
    raiseAccess cause who b line (sendUp msg (takeTxn (quiet s))) = accessRaised cause who b line msg false s := by
  rw [raiseAccess, noteAccess_eq, raiseFault_ignore]
  · simp only [countRaise, isConditionKind, Bool.or_false, accessRaised]
    rfl
  · exact h

theorem answerBlack_eq (line : Nat) (who : Originator) (b : Binding) (s : State) :
    answerBlack line who b (quiet s) = raiseAccess .protectedRead who b line
      (sendUp (.data s.path.nextTxn (blackLine b.range)) (takeTxn (quiet s))) := rfl

theorem refuseWrite_eq (line : Nat) (who : Originator) (b : Binding) (s : State) :
    refuseWrite line who b (quiet s) = raiseAccess .writeRefused who b line
      (sendUp (.writeError s.path.nextTxn) (takeTxn (quiet s))) := rfl

/-- Settles O6: the answer goes up at once, and the raise is made under the policy of ACCESS. -/
theorem refusedAccessIsRaised : Obligations.RefusedAccessIsRaised := by
  unfold Obligations.RefusedAccessIsRaised
  intro addr who data enables s on
  refine ⟨fun black => ?_, fun refused => ?_⟩
  · rw [exec_lineRead on, readArrives_none black, answerBlack_eq]
    exact ⟨fun report => by rw [raiseAccess_report report]; rfl, fun ignore => by rw [raiseAccess_ignore ignore]; rfl⟩
  · rw [exec_lineWrite on, writeArrives_refused refused, refuseWrite_eq]
    exact ⟨fun report => by rw [raiseAccess_report report]; rfl, fun ignore => by rw [raiseAccess_ignore ignore]; rfl⟩

end Sys2Proof.Machine
end

section
/-! SUPPORT. Proofs/Answers.lean: the downstream answers of reads: plain and raw data, errors, the parts of a display read (R12, R13,
R76, R81, R120 to R126, R165). -/

namespace Sys2Proof.Machine

/-! ### The read that an answer comes for -/

theorem exec_readReturn {s : State} {txn : Nat} {r : ReadInFlight} (on : s.power.on = true) (h : awaitedRead s txn = some r)
    (ans : ReadAnswer) : exec (.readReturn txn ans) s = .next (readReturns r ans (quiet s)) := by
  show Host.Outcome.next (whenOn s _) = _
  rw [whenOn_on on, show awaitedRead (quiet s) txn = some r from h]

theorem awaitedRead_some {s : State} {txn : Nat} {r : ReadInFlight} (h : awaitedRead s txn = some r) :
    r ∈ s.path.reads ∧ r.txn = txn ∧ r.frame = none := by
  have found := List.find?_some h
  simp only [Bool.and_eq_true, beq_iff_eq, Option.isNone_iff_eq_none] at found
  exact ⟨List.mem_of_find?_eq_some h, found⟩

theorem awaitedRead_none (s : State) (txn : Nat) :
    awaitedRead s txn = none ↔ ∀ r ∈ s.path.reads, r.txn = txn → r.frame ≠ none := by
  simp [awaitedRead, List.find?_eq_none]

/-! ### Errors -/

theorem holdsUnit_iff (c : Option UnitContext) (unit : Nat) : holdsUnit c unit = true ↔ ∃ d, c = some d ∧ d.unit = unit := by
  cases c <;> simp [holdsUnit]

/-- Context 0, named by `false`, tracks a unit that it holds. -/
theorem trackedBy_false (u : Unpack) (unit : Nat) : trackedBy u unit = some false ↔ holdsUnit u.context0 unit = true := by
  unfold trackedBy
  cases holdsUnit u.context0 unit <;> cases holdsUnit u.context1 unit <;> simp

/-- Context 1, named by `true`, tracks a unit that it holds and context 0 does not. -/
theorem trackedBy_true (u : Unpack) (unit : Nat) :
    trackedBy u unit = some true ↔ ¬ holdsUnit u.context0 unit = true ∧ holdsUnit u.context1 unit = true := by
  unfold trackedBy
  cases holdsUnit u.context0 unit <;> cases holdsUnit u.context1 unit <;> simp

/-- The Unpack Engine after the downstream error of a picture read (R81). -/
def errorUnpack (s : State) (b : Binding) : Unpack :=
  match (mapPicture s b).bind fun place => trackedBy s.unpack place.unit with
  | some i => abandon i s.unpack
  | none => s.unpack

theorem pictureError_eq (b : Binding) (s : State) : pictureError b s = s.setUnpack (errorUnpack s b) := by
  unfold pictureError errorUnpack
  cases mapPicture s b with
  | none => rfl
  | some place => cases h : trackedBy s.unpack place.unit <;> simp [h, State.setUnpack]

theorem abandon_eq (i : Bool) (u : Unpack) : abandon i u = { u with
    context0 := if i = true then u.context0 else none
    context1 := if i = true then none else u.context1
    uncheckedUnits := Nat.min (u.uncheckedUnits + 1) 4294967295 } := by cases i <;> rfl

theorem readError_picture {r : ReadInFlight} (h : r.route = .picture) (s : State) :
    readError r s = (sendUp (.readError r.txn) (dropRead r.txn s)).setUnpack (errorUnpack s r.binding) := by
  simp only [readError, h, pictureError_eq]; rfl

theorem readError_other {r : ReadInFlight} (h : r.route ≠ .picture) (s : State) :
    readError r s = sendUp (.readError r.txn) (dropRead r.txn s) := by
  unfold readError; dsimp only; split
  · next c => exact absurd c h
  all_goals rfl

theorem readData_plain {r : ReadInFlight} (h : r.route = .plain ∨ r.route = .raw) (line : Line) (s : State) :
    readData r line s = sendUp (.data r.txn line) (dropRead r.txn s) := by
  rcases h with h | h <;> simp only [readData, h]

/-- Settles O8: data of plain and raw reads unchanged, errors of every route, and the context an error abandons. -/
theorem memoryAnswersGoUpstream : Obligations.MemoryAnswersGoUpstream := by
  unfold Obligations.MemoryAnswersGoUpstream
  refine ⟨fun txn line s r on h => ⟨fun route => ?_, fun route => ?_, fun route => ⟨errorUnpack s r.binding, ?_, ?_, ?_⟩⟩,
    fun u unit => ⟨?_, ?_⟩, fun s txn => ⟨fun r => awaitedRead_some, awaitedRead_none s txn⟩⟩
  · rw [exec_readReturn on h, readReturns, readData_plain route]; rfl
  · rw [exec_readReturn on h, readReturns, readError_other route]; rfl
  · rw [exec_readReturn on h, readReturns, readError_picture route]; rfl
  · intro untracked
    cases mapped : mapPicture s r.binding with
    | none => simp only [errorUnpack, mapped, Option.bind_none]
    | some p => simp only [errorUnpack, mapped, Option.bind_some, untracked p mapped]
  · intro p i mapped tracked
    simp only [errorUnpack, mapped, Option.bind_some, tracked, abandon_eq]
  · rw [trackedBy_false, holdsUnit_iff]
  · rw [trackedBy_true, holdsUnit_iff, holdsUnit_iff]

end Sys2Proof.Machine
end

section
/-! SUPPORT. Proofs/Display.lean: a display read joined and returned, the line that it returns, and what its side reads draw (R12, R13,
R55, R120 to R126, R165). -/

namespace Sys2Proof.Machine

/-! ### Joining (R13) -/

theorem sideAwaited_iff (lane : LaneId) (x : SideRead) :
    sideAwaited lane x = true ↔ x.entry.lane = lane ∧ x.status = .awaited := by
  unfold sideAwaited; cases x.status <;> simp

theorem readComplete_iff (r : ReadInFlight) :
    readComplete r = true ↔ r.frame ≠ none ∧ ∀ x ∈ r.sides, x.status ≠ .awaited := by
  have side (x : SideRead) : (sideAwaited .a x || sideAwaited .b x) = true ↔ x.status = .awaited := by
    rw [Bool.or_eq_true, sideAwaited_iff, sideAwaited_iff, ← or_and_right]
    cases x.entry.lane <;> simp
  simp [readComplete, Option.isSome_iff_ne_none, ← side]

theorem joinDisplay_held {r : ReadInFlight} (h : readComplete r = false) (s : State) : joinDisplay r s = putRead r s := by
  unfold joinDisplay; split
  · rw [if_neg (by simp [h])]
  · rfl

theorem joinDisplay_complete {r : ReadInFlight} {frame : Line} (f : r.frame = some frame) (h : readComplete r = true)
    (s : State) : joinDisplay r s = displayReturn r.txn r.binding r.sides frame (dropRead r.txn s) := by
  simp only [joinDisplay, f, h, if_true]

/-- The Overlay Unit's counts after a display read has returned (R120, R122). -/
def overlayAfter (s : State) (b : Binding) (sides : List SideRead) (frame : Line) : Overlay :=
  if (compositeBase s b frame).isSome then { s.overlay with
    sideFailures := Nat.min (s.overlay.sideFailures + (sides.filter sideFailed).length) 4294967295
    unmatched := Nat.min (s.overlay.unmatched + (sides.filter (sideUnmatched s)).length) 4294967295 }
  else s.overlay

theorem overlayAfter_none {s : State} {b : Binding} {frame : Line} (h : compositeBase s b frame = none)
    (sides : List SideRead) : overlayAfter s b sides frame = s.overlay := by simp [overlayAfter, h]

theorem overlayAfter_some {s : State} {b : Binding} {frame : Line} (h : compositeBase s b frame ≠ none)
    (sides : List SideRead) : overlayAfter s b sides frame = { s.overlay with
      sideFailures := Nat.min (s.overlay.sideFailures + (sides.filter sideFailed).length) 4294967295
      unmatched := Nat.min (s.overlay.unmatched + (sides.filter (sideUnmatched s)).length) 4294967295 } :=
  if_pos (Option.isSome_iff_ne_none.mpr h)

theorem displayReturn_eq (txn : Nat) (b : Binding) (sides : List SideRead) (frame : Line) (s : State) :
    displayReturn txn b sides frame s = { s with
      overlay := overlayAfter s b sides frame
      out := { s.out with up := s.out.up ++ [.data txn (displayLine s b sides frame)] } } := by
  unfold displayReturn overlayAfter
  split <;> rfl

/-- A display read that is complete goes upstream, as the state before the answer composes it. -/
theorem joinDisplay_returns {r : ReadInFlight} {frame : Line} (f : r.frame = some frame) (h : readComplete r = true)
    (s : State) : joinDisplay r (quiet s) = { s with
      path := { s.path with reads := s.path.reads.filter fun y => y.txn != r.txn }
      overlay := overlayAfter s r.binding r.sides frame
      out := { up := [.data r.txn (displayLine s r.binding r.sides frame)] } } := by
  rw [joinDisplay_complete f h, displayReturn_eq]; rfl

theorem readData_display {r : ReadInFlight} (h : r.route = .display) (line : Line) (s : State) :
    readData r line s = joinDisplay { r with frame := some line } s := by
  obtain ⟨_, _, _, _, route, _, _⟩ := r
  cases h; rfl

/-! ### The line returned (R121) -/

theorem pictureShown_iff (s : State) :
    pictureShown s = true ↔ s.ctl.state = .running ∧ s.ctl.mark = .full ∧ outputCondition s = .openOutput := by
  simp [pictureShown, isRunning, isFull, and_assoc]

theorem previewDisplay_iff (s : State) : previewDisplay s = true ↔
    s.ctl.mark = .preview ∧ (s.ctl.state = .primed ∨ s.ctl.state = .running ∨ s.ctl.state = .held) := by
  unfold previewDisplay; cases s.ctl.state <;> simp

theorem displayLine_base {s : State} {b : Binding} {frame base : Line} (h : compositeBase s b frame = some base)
    (sides : List SideRead) : displayLine s b sides frame = compositeLine b.range (sides.filterMap (drawnFor s)) base := by
  simp only [displayLine, h]

theorem displayLine_none {s : State} {b : Binding} {frame : Line} (h : compositeBase s b frame = none)
    (sides : List SideRead) : displayLine s b sides frame = if b.isProtected then blackLine b.range else frame := by
  simp only [displayLine, h]

/-! ### What a side read draws (R122, R123) -/

/-- The draw entry that a cue would have been bound with at a lane. -/
theorem entryMatchesCue_iff (e : DrawEntry) (c : Cue) : entryMatchesCue e c = true ↔ e = drawEntryOf e.lane c := by
  cases e; simp [entryMatchesCue, drawEntryOf, and_assoc]

theorem matchedCue_some {s : State} {e : DrawEntry} {a : ActiveCue} (h : (cueLane s e.lane).active = some a)
    (m : e = drawEntryOf e.lane a.cue) : matchedCue s e = some a.cue := by
  simp only [matchedCue, h, (entryMatchesCue_iff e a.cue).mpr m, if_true]

theorem matchedCue_none {s : State} {e : DrawEntry}
    (h : ∀ a, (cueLane s e.lane).active = some a → ¬ e = drawEntryOf e.lane a.cue) : matchedCue s e = none := by
  unfold matchedCue; split
  · rfl
  · next a ha => exact if_neg fun c => h a ha ((entryMatchesCue_iff e a.cue).mp c)

theorem drawnFor_data {s : State} {x : SideRead} {plane : Line} (h : x.status = .data plane) :
    drawnFor s x = (matchedCue s x.entry).map (fun c => { level := cueLevel s c, plane := plane }) ∧
      sideUnmatched s x = (matchedCue s x.entry).isNone ∧ sideFailed x = false := by
  simp only [drawnFor, sideUnmatched, sideFailed, h, and_self]

theorem drawnFor_failed {s : State} {x : SideRead} (h : x.status = .failed) :
    drawnFor s x = none ∧ sideFailed x = true ∧ sideUnmatched s x = false := by
  simp only [drawnFor, sideUnmatched, sideFailed, h, and_self]

/-- One side of a fade, over `n` units of a ramp of length `r`: from 1 to 256 (R123). -/
theorem fade_bounds {n r : Nat} (hn : 1 ≤ n) (hr : r ≤ 255) :
    1 ≤ (if r = 0 then 256 else min 256 (256 * n / r)) ∧ (if r = 0 then 256 else min 256 (256 * n / r)) ≤ 256 := by
  split
  · omega
  · next pos =>
    have : 1 ≤ 256 * n / r := Nat.div_pos (by omega) (by omega)
    omega

theorem fadeLevel_eq {i o u d p : Nat} (h : i ≤ p) : fadeLevel i o u d p =
    min (if u = 0 then 256 else min 256 (256 * (p - i + 1) / u)) (if d = 0 then 256 else min 256 (256 * (o - p) / d)) := by
  rw [← Nat.sub_add_comm h]; rfl

theorem fadeLevel_bounds {i o u d p : Nat} (hi : i ≤ p) (ho : p < o) (hu : u ≤ 255) (hd : d ≤ 255) :
    1 ≤ fadeLevel i o u d p ∧ fadeLevel i o u d p ≤ 256 := by
  rw [fadeLevel_eq hi]
  have up := fade_bounds (n := p - i + 1) (by omega) hu
  have down := fade_bounds (n := o - p) (by omega) hd
  omega

/-! ### The composited line (R124, R125) -/

/-- One component of a pixel under one drawn cue, as R124 and R125 write it. -/
theorem drawComponent_eq (range : PixelRange) (pixel : BitVec 32) (level lo f : Nat) :
    drawComponent range pixel level lo f =
      max (blackLevel range) (min (((match range with
        | .full => 4 * wordField pixel lo 8 + wordField pixel lo 8 / 64
        | .limited => 64 + (4 * wordField pixel lo 8 + wordField pixel lo 8 / 64) * 876 / 1023) *
          (wordField pixel 24 8 * level / 256) + f * (255 - wordField pixel 24 8 * level / 256) + 127) / 255)
        (whiteLevel range)) := by
  cases range <;> rfl

theorem compositeComponent_eq (range : PixelRange) (drawn : List DrawnCue) (i lo f : Nat) :
    compositeComponent range drawn i lo f =
      if drawn = [] then clampComponent range f
      else drawn.foldl (fun acc d => drawComponent range (lineWord d.plane i) d.level lo acc) f := by
  cases drawn <;> simp [compositeComponent]

/-- The component at bit `lo` of a frame pixel is composited of the one at bit `lo / 10 * 8` of a plane pixel. -/
theorem compositeLine_component (range : PixelRange) (drawn : List DrawnCue) (base : Line) {i lo : Nat} (hi : i < 16)
    (hlo : lo = 0 ∨ lo = 10 ∨ lo = 20) : wordField (lineWord (compositeLine range drawn base) i) lo 10 =
      compositeComponent range drawn i (lo / 10 * 8) (wordField (lineWord base i) lo 10) := by
  obtain ⟨red, green, blue, -⟩ := compositeWord_fields range drawn (lineWord base i) i
  rw [compositeLine, lineWord_fn _ i hi]
  rcases hlo with rfl | rfl | rfl
  · exact blue
  · exact green
  · exact red

theorem compositeLine_unused (range : PixelRange) (drawn : List DrawnCue) (base : Line) {i : Nat} (hi : i < 16) :
    (lineWord (compositeLine range drawn base) i).extractLsb' 30 2 = (lineWord base i).extractLsb' 30 2 := by
  rw [compositeLine, lineWord_fn _ i hi]
  exact (compositeWord_fields range drawn (lineWord base i) i).2.2.2

/-- A black line: every component at the black level, the unused bits clear (R126). -/
theorem blackLine_fields (range : PixelRange) {i lo : Nat} (hi : i < 16) (hlo : lo = 0 ∨ lo = 10 ∨ lo = 20) :
    wordField (lineWord (blackLine range) i) lo 10 = blackLevel range ∧
      (lineWord (blackLine range) i).extractLsb' 30 2 = 0#2 := by
  have small : blackLevel range < 1024 := by cases range <;> decide
  obtain ⟨red, green, blue, unused⟩ := pixelWord_fields 0#2 small small small
  rw [blackLine, lineWord_fn _ i hi]
  rcases hlo with rfl | rfl | rfl
  · exact ⟨blue, unused⟩
  · exact ⟨green, unused⟩
  · exact ⟨red, unused⟩

/-- Bit `j` of word `i` is bit `32 i + j` of the line (R165). -/
theorem lineWord_getLsbD (l : Line) (i : Nat) {j : Nat} (hj : j < 32) : (lineWord l i).getLsbD j = l.getLsbD (32 * i + j) := by
  simp [lineWord, hj]

theorem wordField_eq (w : BitVec 32) (lo len : Nat) : wordField w lo len = w.toNat / 2 ^ lo % 2 ^ len := by
  simp [wordField, Nat.shiftRight_eq_div_pow]

/-- Settles O12: the joining, the line returned, and what is drawn on it. -/
theorem displayReadReturns : Obligations.DisplayReadReturns := by
  unfold Obligations.DisplayReadReturns
  refine ⟨fun txn line s r on h route => ⟨fun held => ?_, fun complete =>
      ⟨overlayAfter s r.binding r.sides line, ?_, fun c => overlayAfter_none c _, fun c => overlayAfter_some c _⟩⟩,
    fun s b sides frame => ⟨pictureShown_iff s, previewDisplay_iff s, fun p => ?_, fun p v => ?_, fun p v => ?_,
      fun base h => displayLine_base h sides⟩,
    fun s x => ⟨drawnFor_failed, fun plane h => ?_⟩,
    fun i o u d p hi ho hu hd => ⟨fadeLevel_eq hi, fadeLevel_bounds hi ho hu hd⟩,
    fun range drawn base i lo hi hlo => ?_, readComplete_iff, fun l i j hj => lineWord_getLsbD l i hj, wordField_eq,
    fun range => by cases range <;> exact ⟨rfl, rfl⟩⟩
  · rw [exec_readReturn on h, readReturns, readData_display route, joinDisplay_held held]; rfl
  · rw [exec_readReturn on h, readReturns, readData_display route, joinDisplay_returns rfl complete]
  · simp [compositeBase, p]
  · simp [compositeBase, p, v]
  · have none : compositeBase s b frame = none := by simp [compositeBase, p, v]
    exact ⟨none, displayLine_none none sides⟩
  · obtain ⟨drawn, unmatched, failed⟩ := drawnFor_data (s := s) h
    refine ⟨failed, fun a ha same => ?_, fun differs => ?_⟩
    · rw [drawn, unmatched, matchedCue_some ha same]; exact ⟨rfl, rfl⟩
    · rw [drawn, unmatched, matchedCue_none differs]; exact ⟨rfl, rfl⟩
  · obtain ⟨black, clear⟩ := blackLine_fields range hi hlo
    have bounds := compositeComponent_bounds range drawn i (lo / 10 * 8) (wordField (lineWord base i) lo 10)
    dsimp only
    rw [compositeLine_component range drawn base hi hlo]
    refine ⟨?_, compositeLine_unused range drawn base hi, bounds.1, bounds.2, black, clear⟩
    rw [compositeComponent_eq]
    simp only [drawComponent_eq]
    rfl

/-! ### The answer of a side read (R12, R13) -/

theorem answerSide_eq (lane : LaneId) (ans : ReadAnswer) (x : SideRead) : answerSide lane ans x =
    if x.entry.lane = lane ∧ x.status = .awaited then
      { x with status := match ans with | .data line => .data line | .error => .failed }
    else x := by
  cases ans <;> simp only [answerSide, sideAwaited_iff]

/-- A read awaits a side read for a lane. -/
theorem any_sideAwaited_iff (lane : LaneId) (r : ReadInFlight) :
    r.sides.any (sideAwaited lane) = true ↔ ∃ x ∈ r.sides, x.entry.lane = lane ∧ x.status = .awaited := by
  simp only [List.any_eq_true, sideAwaited_iff]

theorem awaitedSide_some {s : State} {txn : Nat} {lane : LaneId} {r : ReadInFlight} (h : awaitedSide s txn lane = some r) :
    r ∈ s.path.reads ∧ r.txn = txn ∧ ∃ x ∈ r.sides, x.entry.lane = lane ∧ x.status = .awaited := by
  have found := List.find?_some h
  rw [Bool.and_eq_true, beq_iff_eq, any_sideAwaited_iff] at found
  exact ⟨List.mem_of_find?_eq_some h, found⟩

theorem awaitedSide_none (s : State) (txn : Nat) (lane : LaneId) : awaitedSide s txn lane = none ↔
    ∀ r ∈ s.path.reads, ¬ (r.txn = txn ∧ ∃ x ∈ r.sides, x.entry.lane = lane ∧ x.status = .awaited) := by
  simp only [awaitedSide, List.find?_eq_none, Bool.and_eq_true, beq_iff_eq, any_sideAwaited_iff]

theorem exec_sideReadReturn {s : State} {txn : Nat} {lane : LaneId} {r : ReadInFlight} (on : s.power.on = true)
    (h : awaitedSide s txn lane = some r) (ans : ReadAnswer) : exec (.sideReadReturn txn lane ans) s =
      .next (joinDisplay { r with sides := r.sides.map (answerSide lane ans) } (quiet s)) := by
  show Host.Outcome.next (whenOn s _) = _
  rw [whenOn_on on, show awaitedSide (quiet s) txn lane = some r from h]

/-- An answer that no side read awaits is discarded. -/
theorem exec_sideReadReturn_none {s : State} {txn : Nat} {lane : LaneId} (on : s.power.on = true)
    (h : awaitedSide s txn lane = none) (ans : ReadAnswer) : exec (.sideReadReturn txn lane ans) s = .next (quiet s) := by
  show Host.Outcome.next (whenOn s _) = _
  rw [whenOn_on on, show awaitedSide (quiet s) txn lane = none from h]

/-- Settles O13: a side read joined, the display read returned with its last answer, and an answer that nothing awaits. -/
theorem sideReadReturns : Obligations.SideReadReturns := by
  unfold Obligations.SideReadReturns
  refine ⟨fun txn lane ans s r on h => ⟨fun held => ?_, fun frame f complete =>
      ⟨overlayAfter s r.binding (r.sides.map (answerSide lane ans)) frame, ?_, fun c => overlayAfter_none c _,
        fun c => overlayAfter_some c _⟩⟩,
    fun s txn lane => ⟨fun r => awaitedSide_some, awaitedSide_none s txn lane,
      fun h on ans => exec_sideReadReturn_none on h ans⟩,
    answerSide_eq⟩
  · rw [exec_sideReadReturn on h, joinDisplay_held held]; rfl
  · rw [exec_sideReadReturn on h, joinDisplay_returns (r := { r with sides := r.sides.map (answerSide lane ans) }) f complete]

end Sys2Proof.Machine
end

section
/-! SUPPORT. Proofs/Regions.lean: the REGION record: its checks row by row, and the entry that it makes (R3, R6, R7, Table 11-13). -/

namespace Sys2Proof.Machine

/-! ### Kinds and geometry -/

theorem regionKindOf_eq (b : Byte) : regionKindOf b =
    [RegionKind.openMemory, .pictureEssence, .soundEssence, .frame, .plane, .cue][b.toNat]? := by
  unfold regionKindOf
  rcases b.toNat with _ | _ | _ | _ | _ | _ | n <;> rfl

theorem regionKindOf_isSome (b : Byte) : (regionKindOf b).isSome = decide (b.toNat ≤ 5) := by
  rw [regionKindOf_eq, Bool.eq_iff_iff, decide_eq_true_iff, isSome_getElem?]
  exact Nat.lt_succ_iff

theorem isEssence_iff (k : RegionKind) : isEssence k = true ↔ k = .pictureEssence ∨ k = .soundEssence := by
  cases k <;> simp [isEssence]

theorem hasGeometry_iff (k : RegionKind) : hasGeometry k = true ↔ k = .frame ∨ k = .plane := by
  cases k <;> simp [hasGeometry]

theorem isEssence_eq (k : RegionKind) : isEssence k = decide (k = .pictureEssence ∨ k = .soundEssence) := by
  rw [Bool.eq_iff_iff, isEssence_iff, decide_eq_true_iff]

theorem hasGeometry_eq (k : RegionKind) : hasGeometry k = decide (k = .frame ∨ k = .plane) := by
  rw [Bool.eq_iff_iff, hasGeometry_iff, decide_eq_true_iff]

theorem rangesMeet_iff (e f : RegionEntry) :
    rangesMeet e f = true ↔ e.base < f.base + f.size ∧ f.base < e.base + e.size := by simp [rangesMeet]

theorem geometryOk_iff (e : RegionEntry) : geometryOk e = true ↔ 16 ≤ e.width ∧ e.width ≤ 4096 ∧ e.width % 16 = 0 ∧
    1 ≤ e.height ∧ e.height ≤ 2160 ∧ e.width / 16 ≤ e.pitch ∧ e.pitch ≤ 65535 ∧ e.height * e.pitch ≤ e.size := by
  simp [geometryOk, and_assoc]

/-! ### The entry of a record (R3) -/

/-- The kind of a record, one outside the six as OPEN. -/
def writtenKind (w : RegionWrite) : RegionKind := (regionKindOf w.kind).getD .openMemory

theorem entryOfWrite_eq (w : RegionWrite) : entryOfWrite w =
    { valid := w.valid, base := w.base.toNat, size := w.size.toNat, kind := writtenKind w, writers := w.writers
      reel := if writtenKind w = .pictureEssence ∨ writtenKind w = .soundEssence then w.reel.toNat else 0
      stride := if writtenKind w = .pictureEssence then w.stride.toNat else 0
      width := if writtenKind w = .frame ∨ writtenKind w = .plane then w.width.toNat else 0
      height := if writtenKind w = .frame ∨ writtenKind w = .plane then w.height.toNat else 0
      pitch := if writtenKind w = .frame ∨ writtenKind w = .plane then w.pitch.toNat else 0
      range := if writtenKind w = .frame ∧ w.limited = true then .limited else .full
      isProtected := writtenKind w = .frame && w.isProtected } := by
  unfold entryOfWrite
  simp only [isEssence_iff, hasGeometry_iff]
  rfl

/-! ### The checks (R6) -/

theorem not_isPrimed (s : State) : (!isPrimed s) = (decide (s.ctl.state = .empty) || decide (s.ctl.state = .loaded)) := by
  unfold isPrimed; cases s.ctl.state <;> rfl

/-- Check 4, of the record's own fields. -/
theorem reelCheck_eq (w : RegionWrite) : (!isEssence (entryOfWrite w).kind || decide ((entryOfWrite w).reel ≤ 15)) =
    (!decide (writtenKind w = .pictureEssence ∨ writtenKind w = .soundEssence) || decide (w.reel.toNat ≤ 15)) := by
  rw [entryOfWrite_eq, isEssence_eq]
  by_cases h : writtenKind w = .pictureEssence ∨ writtenKind w = .soundEssence
  · simp only [h, if_true]
  · simp [h]

/-- Check 5, of the record's own fields. -/
theorem strideCheck_eq (w : RegionWrite) : ((entryOfWrite w).kind != .pictureEssence ||
      (decide (2 ≤ (entryOfWrite w).stride) && decide ((entryOfWrite w).stride ≤ 65535))) =
    (decide (writtenKind w ≠ .pictureEssence) || (decide (2 ≤ w.stride.toNat) && decide (w.stride.toNat ≤ 65535))) := by
  rw [entryOfWrite_eq]
  by_cases h : writtenKind w = .pictureEssence
  · simp [h]
  · simp [h]

/-- Check 6, of the record's own fields. -/
theorem geometryCheck_eq (w : RegionWrite) : (!hasGeometry (entryOfWrite w).kind || geometryOk (entryOfWrite w)) =
    (!decide (writtenKind w = .frame ∨ writtenKind w = .plane) ||
      (decide (16 ≤ w.width.toNat) && decide (w.width.toNat ≤ 4096) && decide (w.width.toNat % 16 = 0) &&
        decide (1 ≤ w.height.toNat) && decide (w.height.toNat ≤ 2160) && decide (w.width.toNat / 16 ≤ w.pitch.toNat) &&
        decide (w.pitch.toNat ≤ 65535) && decide (w.height.toNat * w.pitch.toNat ≤ w.size.toNat))) := by
  rw [entryOfWrite_eq, hasGeometry_eq]
  by_cases h : writtenKind w = .frame ∨ writtenKind w = .plane
  · simp only [h, if_true, geometryOk]
  · simp [h]

/-- Check 7: two ranges share no line when one ends before the other begins. -/
theorem overlapCheck_eq (regions : Vector RegionEntry 24) (i : Fin 24) (w : RegionWrite) :
    noOverlap regions i (entryOfWrite w) = (List.finRange 24).all fun j =>
      decide (j = i) || !regions[j].valid || decide (regions[j].base + regions[j].size ≤ w.base.toNat) ||
        decide (w.base.toNat + w.size.toNat ≤ regions[j].base) := by
  unfold noOverlap
  congr 1; funext j
  have apart : (!rangesMeet (entryOfWrite w) regions[j]) =
      (decide (regions[j].base + regions[j].size ≤ w.base.toNat) ||
        decide (w.base.toNat + w.size.toNat ≤ regions[j].base)) := by
    rw [Bool.eq_iff_iff]
    simp only [Bool.not_eq_true', Bool.or_eq_true, decide_eq_true_eq, ← Bool.not_eq_true, rangesMeet_iff, entryOfWrite]
    omega
  rw [apart, Bool.or_assoc _ (decide _) (decide _)]; rfl

/-- The rows of R6, each of a record's own fields: checks 2 to 7 of a VALID record alone. -/
def regionRows (i : Fin 24) (w : RegionWrite) (s : State) : List Row :=
  let kind := writtenKind w
  let essence := kind = .pictureEssence ∨ kind = .soundEssence
  let picture := kind = .frame ∨ kind = .plane
  let base := w.base.toNat
  let size := w.size.toNat
  [⟨s.ctl.state = .empty || s.ctl.state = .loaded, .refusedState, 1⟩, ⟨!w.valid || w.kind.toNat ≤ 5, .refusedValue, 2⟩,
   ⟨!w.valid || 1 ≤ size && size ≤ 268435456 && base + size ≤ 17179869184, .refusedValue, 3⟩,
   ⟨!w.valid || !essence || w.reel.toNat ≤ 15, .refusedValue, 4⟩,
   ⟨!w.valid || kind ≠ .pictureEssence || 2 ≤ w.stride.toNat && w.stride.toNat ≤ 65535, .refusedValue, 5⟩,
   ⟨!w.valid || !picture ||
      16 ≤ w.width.toNat && w.width.toNat ≤ 4096 && w.width.toNat % 16 = 0 && 1 ≤ w.height.toNat &&
        w.height.toNat ≤ 2160 && w.width.toNat / 16 ≤ w.pitch.toNat && w.pitch.toNat ≤ 65535 &&
        w.height.toNat * w.pitch.toNat ≤ size, .refusedValue, 6⟩,
   ⟨!w.valid || (List.finRange 24).all fun j =>
      j = i || !s.path.regions[j].valid || s.path.regions[j].base + s.path.regions[j].size ≤ base ||
        base + size ≤ s.path.regions[j].base, .refusedValue, 7⟩]

/-- A REGION record is judged by the rows of R6. -/
theorem region_judged (i : Fin 24) (w : RegionWrite) (s : State) :
    checked (regionChecks i w (quiet s)) (regionWritten i w) (quiet s) =
      judged s (regionWritten i w (quiet s)) (regionRows i w s) := by
  cases v : w.valid
  · simp only [regionChecks, regionRows, v, Bool.false_eq_true, if_false, checked_cons, checked_nil, judged, Bool.not_false,
      Bool.true_or, if_true, answer_quiet, ← not_isPrimed]
    rfl
  · refine checked_eq_judged ?_ rfl
    unfold regionChecks regionRows
    rw [if_pos v]
    simp only [validChecks, v, Bool.not_true, Bool.false_or]
    refine .cons ⟨not_isPrimed s, rfl, rfl⟩ (.cons ⟨regionKindOf_isSome _, rfl, rfl⟩ (.cons ⟨rfl, rfl, rfl⟩
      (.cons ⟨reelCheck_eq w, rfl, rfl⟩ (.cons ⟨strideCheck_eq w, rfl, rfl⟩ (.cons ⟨geometryCheck_eq w, rfl, rfl⟩
        (.cons ⟨overlapCheck_eq _ i w, rfl, rfl⟩ .nil))))))

/-- Settles O48: a record is judged by the rows of R6, and one that passes replaces the entry whole. -/
theorem regionRecordFollowsItsChecks : Obligations.RegionRecordFollowsItsChecks := by
  unfold Obligations.RegionRecordFollowsItsChecks
  refine ⟨fun i w s linked => ?_, regionKindOf_eq, fun k => ⟨isEssence_iff k, hasGeometry_iff k⟩,
    fun e f => ⟨rangesMeet_iff e f, geometryOk_iff e⟩⟩
  have others : (fun j : Fin 24 => j != i) = fun j => decide (j ≠ i) := by
    funext j; rw [Bool.eq_iff_iff, bne_iff_ne, decide_eq_true_iff]
  show Host.Outcome.next (onLink 38 s _) = _
  rw [onLink_linked linked, region_judged, regionWritten, entryOfWrite_eq, others]
  rfl

end Sys2Proof.Machine
end

section
/-! SUPPORT. Proofs/Resets.lean: booth reset as one state, the release of BRST_N, and the state after reset (R5, R17, R35, R41, R59,
R66, R86, R99, R116, R127, R141, R142, R145, R156, R163). -/

namespace Sys2Proof.Machine

/-! ### Booth reset -/

/-- The Count Unit after a booth reset (R142): the RAM copy reloaded when READY, owed when BUSY, kept when FAILED. -/
def countReset (c : CountUnit) : CountUnit :=
  { c with
    reserved := none
    blanked := 0
    commitSeen := false
    ram := if c.status = .ready then c.store else c.ram
    reloadDue := c.reloadDue || (storeCode c.status == 1#8) }

/-- A reload takes the RAM copy from the store, and sets LOG_HIGH at 48 records or more (R141, R142). -/
theorem loadRam_eq (s : State) : loadRam s = { s with
    count := { s.count with ram := s.count.store }
    link := { s.link with
      eventPending := if 48 ≤ s.count.store.log.length then s.link.eventPending ||| 8#7 else s.link.eventPending } } := by
  unfold loadRam; dsimp only; split <;> rfl

theorem resetCount_eq (s : State) : resetCount s = { s with
    count := countReset s.count
    link := { s.link with
      eventPending := if s.count.status = .ready ∧ 48 ≤ s.count.store.log.length then s.link.eventPending ||| 8#7
        else s.link.eventPending } } := by
  unfold resetCount countReset
  cases h : s.count.status with
  | ready => simp [loadRam_eq, storeCode, h, State.setCount]
  | busy w => simp [storeCode, h, State.setCount]
  | failed => simp [storeCode, h, State.setCount]

/-- A booth reset as one state: LOG_HIGH alone can be pending after it. -/
theorem boothResetAll_eq (s : State) : boothResetAll s =
    { resetBlocks s with
      count := countReset s.count
      link := { eventPending := if s.count.status = .ready ∧ 48 ≤ s.count.store.log.length then 8#7 else 0#7 } } := by
  have high : (resetBlocks s).link.eventPending ||| 8#7 = 8#7 := by simp [resetBlocks]
  rw [boothResetAll, resetCount_eq, high]
  rfl

/-- Settles O54: RESET and BRST_N's booth reset are one reset, and differ in the level and in the transfer cut off. -/
theorem boothResetKeepsWhatItMust : Obligations.BoothResetKeepsWhatItMust := by
  unfold Obligations.BoothResetKeepsWhatItMust
  refine fun s => ⟨fun linked => ?_, fun midTransfer => ⟨fun on high => ?_, fun dead => ?_⟩, rfl⟩
  · show Host.Outcome.next (onLink 6 s _) = _
    rw [onLink_linked linked, boothResetAll_eq]
    rfl
  · have falls : (s.power.on && !s.power.brstLow) = true := by simp [on, high]
    show Host.Outcome.next (if (s.power.on && !s.power.brstLow) = true then _ else _) = _
    rw [if_pos falls, boothResetAll_eq]
    rfl
  · have stays : ¬ (s.power.on && !s.power.brstLow) = true := by
      rcases dead with off | low
      · simp [off]
      · simp [low]
    show Host.Outcome.next (if (s.power.on && !s.power.brstLow) = true then _ else _) = _
    rw [if_neg stays]
    rfl

/-! ### The state after reset -/

theorem faultOf_reset (k : FaultKind) : faultOf State.reset k = {} := Vector.getElem_replicate _

theorem secureOk_reset : SecureOk State.reset := by
  unfold SecureOk; decide

theorem lanesOk_reset : LanesOk State.reset := by
  unfold LanesOk laneOk; decide

theorem contextsOk_reset : ContextsOk State.reset := ⟨nofun, nofun, nofun⟩

theorem showOk_reset : ShowOk State.reset :=
  ⟨by decide, by decide, fun _ => rfl, nofun, fun h => absurd rfl h⟩

theorem keysOk_reset : KeysOk State.reset := nofun

theorem copiesOk_reset : CopiesOk State.reset := by
  intro k; rw [faultOf_reset]; cases k <;> rfl

/-- A store new from manufacture is lawful (R129, R136). -/
theorem imageOk_new : ImageOk {} := by
  have empty (i : Fin 8) : (({} : CountImage).licences[i]) = .empty := Vector.getElem_replicate _
  refine ⟨fun i => ?_, by decide, by decide, fun _ => .nil, nofun, fun i => Nat.zero_le _⟩
  rw [empty]; exact nofun

theorem countsOk_reset : CountsOk State.reset := ⟨imageOk_new, imageOk_new, ⟨rfl, rfl⟩, nofun⟩

/-- Settles O3: every block at its reset values, and every law at reset. -/
theorem resetHoldsTheRulesValues : Obligations.ResetHoldsTheRulesValues := by
  unfold Obligations.ResetHoldsTheRulesValues
  refine ⟨rfl, rfl, rfl, rfl, rfl, fun i => Vector.getElem_replicate _, rfl, rfl, rfl, rfl, rfl, rfl,
    fun k => ⟨faultOf_reset k, ?_⟩, rfl, rfl, rfl, rfl, ?_, ?_, ?_, ?_, regionsOk_reset, parametersOk_reset, secureOk_reset,
    lanesOk_reset, contextsOk_reset, showOk_reset, keysOk_reset, copiesOk_reset, countsOk_reset⟩
  · cases k <;> rfl
  all_goals decide

end Sys2Proof.Machine
end

section
/-! SUPPORT. Proofs/CueLines.lean: the completion of a write, which lines are cues, which filter decides, and the fate of a cue line (R2,
R15, R100 to R105, R112, R115, R165). -/

namespace Sys2Proof.Machine

/-! ### The fields of a line (R165) -/

theorem lineField_eq (l : Line) (k n : Nat) : lineField l k n = l.toNat / 2 ^ (8 * k) % 2 ^ (8 * n) := by
  simp [lineField, Nat.shiftRight_eq_div_pow]

theorem lineByte_eq_iff (l : Line) (k : Nat) (b : Byte) : lineByte l k = b ↔ lineField l k 1 = b.toNat := by
  rw [← BitVec.toNat_inj]; rfl

/-! ### The CRC-8 of a cue line (R101) -/

theorem crc8Shift_eq (r : Byte) : crc8Shift r = if r.getLsbD 7 = true then (r <<< 1) ^^^ 7#8 else r <<< 1 := rfl

theorem crc8Step_eq (r b : Byte) : crc8Step r b = crc8Shift^[8] (r ^^^ b) := rfl

/-- The CRC-8 of a line's first bytes, byte 0 first. -/
theorem crc8_lineBytes (l : Line) (n : Nat) :
    crc8 (lineBytes l n) = (List.range n).foldl (fun r k => crc8Shift^[8] (r ^^^ lineByte l k)) 0#8 := by
  rw [crc8, lineBytes, List.foldl_map]; rfl

theorem cueCrcOk_iff (l : Line) : cueCrcOk l = true ↔
    (List.range 63).foldl (fun r k => crc8Shift^[8] (r ^^^ lineByte l k)) 0#8 = lineByte l 63 := by
  rw [cueCrcOk, beq_iff_eq, crc8_lineBytes]

/-! ### The cue that a line is (R100, R102) -/

theorem cuePlaneOf_iff (l : Line) (plane : Fin 24) : cuePlaneOf l = some plane ↔ plane.val = lineField l 24 1 := by
  unfold cuePlaneOf; split
  · rw [Option.some.injEq, Fin.ext_iff, eq_comm]
  · next big => exact ⟨nofun, fun h => absurd (h ▸ plane.isLt) big⟩

/-- The fields of the cue of a line, each number least significant byte first. -/
theorem cueOfLine_eq (l : Line) (plane : Fin 24) : cueOfLine l plane =
    { number := lineField l 4 4, track := BitVec.ofNat 16 (lineField l 2 2), forced := decide (lineField l 1 1 % 2 = 1)
      inUnit := lineField l 8 3, outUnit := lineField l 11 3, fadeUp := lineField l 14 1, fadeDown := lineField l 15 1
      x0 := 16 * (lineField l 16 2 / 16), y0 := lineField l 18 2, w := 16 * ((lineField l 20 2 + 15) / 16)
      h := lineField l 22 2, plane := plane, px := 16 * (lineField l 26 2 / 16), py := lineField l 28 2 } := by
  have track : l.extractLsb' 16 16 = BitVec.ofNat 16 (lineField l 2 2) :=
    ((BitVec.ofNat_toNat 16 (l.extractLsb' 16 16)).trans (BitVec.setWidth_eq _)).symm
  have forced : l.getLsbD 8 = decide (lineField l 1 1 % 2 = 1) := by
    have low : l.getLsbD 8 = (l.extractLsb' 8 8).toNat.testBit 0 := by
      rw [BitVec.testBit_toNat, BitVec.getLsbD_extractLsb']; rfl
    rw [low, Nat.testBit_zero]; rfl
  rw [cueOfLine, track, forced]
  simp only [Nat.mul_comm 16]

theorem wellFormedCue_iff (s : State) (l : Line) (c : Cue) : wellFormedCue s l = some c ↔
    (lineByte l 0 = 1#8 ∧ cueCrcOk l = true ∧ lineField l 8 3 < lineField l 11 3) ∧
      ∃ plane, cuePlaneOf l = some plane ∧ (planeReady s plane || planeKeptByTie s plane) = true ∧ c = cueOfLine l plane := by
  unfold wellFormedCue; split
  · next checks =>
    cases cuePlaneOf l with
    | none => simp
    | some plane =>
      simp only [checks, and_self, true_and, Option.some.injEq, exists_eq_left']
      split
      · next h => simp [h, eq_comm]
      · next h => simp [h]
  · next checks => exact ⟨nofun, fun h => absurd h.1 checks⟩

theorem planeReady_iff (s : State) (plane : Fin 24) :
    planeReady s plane = true ↔ s.path.regions[plane].valid = true ∧ s.path.regions[plane].kind = .plane := isPlane_iff _

/-- A plane that the tie keeps was lost to a booth reset of this microsecond, and the show is EMPTY (R115; log 29). -/
theorem planeKeptByTie_lost {s : State} {plane : Fin 24} (h : planeKeptByTie s plane = true) :
    plane ∈ s.path.planesLost ∧ s.ctl.state = .empty := by
  simp only [planeKeptByTie, Bool.and_eq_true, List.contains_iff_mem, beq_iff_eq] at h
  exact h.1

/-! ### The filter that decides (R103) -/

theorem filterMatches_iff (f : Filter) (track : BitVec 16) : filterMatches f track = true ↔
    f.enabled = true ∧ ∀ b, b < 16 → f.mask.getLsbD b = true → track.getLsbD b = f.matchValue.getLsbD b := by
  rw [filterMatches, Bool.and_eq_true, beq_iff_eq]
  refine and_congr_right fun _ => ⟨fun h b _ hb => ?_, fun h => ?_⟩
  · have bit := congrArg (·.getLsbD b) h
    simpa [hb] using bit
  · apply BitVec.eq_of_getLsbD_eq
    intro b hb
    cases m : f.mask.getLsbD b
    · simp [m]
    · simp [m, h b hb m]

/-- The first filter that matches decides. -/
theorem filterActionFor_first {x : CueIntake} {track : BitVec 16} {i : Fin 8}
    (hit : filterMatches x.filters[i] track = true) (before : ∀ j, j < i → ¬ filterMatches x.filters[j] track = true) :
    filterActionFor x track = x.filters[i].action := by
  have found : x.filters.toList.find? (fun f => filterMatches f track) = some x.filters[i] := by
    rw [List.find?_eq_some_iff_getElem]
    refine ⟨hit, i.val, by simp, by simp, fun j hj => ?_⟩
    have miss := before ⟨j, by omega⟩ hj
    simpa using miss
  rw [filterActionFor, found]

theorem filterActionFor_default {x : CueIntake} {track : BitVec 16}
    (none : ∀ i : Fin 8, ¬ filterMatches x.filters[i] track = true) : filterActionFor x track = x.defaultAction := by
  have missed : x.filters.toList.find? (fun f => filterMatches f track) = .none := by
    rw [List.find?_eq_none]
    intro f hf
    obtain ⟨i, hi, rfl⟩ := List.mem_iff_getElem.mp hf
    have miss := none ⟨i, by simpa using hi⟩
    simpa using miss
  rw [filterActionFor, missed]

/-! ### The write that a completion comes for -/

theorem awaitedWrite_some {s : State} {txn : Nat} {w : WriteInFlight} (h : awaitedWrite s txn = some w) :
    w ∈ s.path.writes ∧ w.txn = txn :=
  ⟨List.mem_of_find?_eq_some h, by simpa using List.find?_some h⟩

theorem awaitedWrite_none (s : State) (txn : Nat) : awaitedWrite s txn = none ↔ ∀ w ∈ s.path.writes, w.txn ≠ txn := by
  simp [awaitedWrite]

theorem exec_writeCompletion {s : State} {txn : Nat} {w : WriteInFlight} (on : s.power.on = true)
    (h : awaitedWrite s txn = some w) (ok : Bool) :
    exec (.writeCompletion txn ok) s = .next (writeCompletes w ok (quiet s)) := by
  show Host.Outcome.next (whenOn s _) = _
  rw [whenOn_on on, show awaitedWrite (quiet s) txn = some w from h]

/-! ### The fate of a cue line (R100, R103, R105) -/

theorem cueIntake_partial {enables : BitVec 64} (h : enables ≠ BitVec.allOnes 64) (data : Line) (s : State) :
    cueIntake data enables s = countPartial (countTaken s) := if_pos h

theorem cueIntake_malformed {data : Line} {s : State} (h : wellFormedCue (countTaken s) data = none) :
    cueIntake data (BitVec.allOnes 64) s = countMalformed (countTaken s) := by
  simp only [cueIntake, ne_eq, not_true_eq_false, if_false, h]

theorem cueIntake_cue {data : Line} {s : State} {c : Cue} (h : wellFormedCue (countTaken s) data = some c) :
    cueIntake data (BitVec.allOnes 64) s = cueFiltered c (countTaken s) := by
  simp only [cueIntake, ne_eq, not_true_eq_false, if_false, h]

/-- The action that names a lane. -/
def laneAction : LaneId → FilterAction
  | .a => .laneA
  | .b => .laneB

theorem cueFiltered_reject {c : Cue} {s : State} (h : filterActionFor s.cues c.track = .reject) :
    cueFiltered c s = countRejected s := by simp only [cueFiltered, h]

theorem cueFiltered_lane {lane : LaneId} {c : Cue} {s : State} (h : filterActionFor s.cues c.track = laneAction lane) :
    cueFiltered c s = cueToLane lane c s := by
  cases lane <;> simp only [laneAction] at h <;> simp only [cueFiltered, h]

theorem lane_of_not_reject {f : FilterAction} (h : f ≠ .reject) : ∃ lane, f = laneAction lane := by
  cases f with
  | laneA => exact ⟨.a, rfl⟩
  | laneB => exact ⟨.b, rfl⟩
  | reject => exact absurd rfl h

theorem cueToLane_ignored {s : State} (h : s.ctl.state = .empty ∨ s.ctl.state = .ended) (lane : LaneId) (c : Cue) :
    cueToLane lane c s = countIgnored s := by
  rcases h with h | h <;> simp only [cueToLane, h]

theorem cueToLane_arrives {s : State} (empty : s.ctl.state ≠ .empty) (ended : s.ctl.state ≠ .ended) (lane : LaneId) (c : Cue) :
    cueToLane lane c s = cueArrives lane c s := by
  unfold cueToLane; split
  · next h => exact absurd h empty
  · next h => exact absurd h ended
  all_goals rfl

theorem isPlaying_eq (s : State) : isPlaying s = (decide (s.ctl.state = .running) || decide (s.ctl.state = .held)) := by
  unfold isPlaying; cases s.ctl.state <;> rfl

/-- The state after the completion of a write has gone upstream and its line has been counted taken (R15, R100). -/
def lineTaken (w : WriteInFlight) (s : State) : State :=
  { s with
    path := { s.path with writes := s.path.writes.filter fun x => x.txn != w.txn }
    cues := { s.cues with counts := { s.cues.counts with taken := Nat.min (s.cues.counts.taken + 1) 4294967295 } }
    out := { up := [.writeOk w.txn] } }

theorem countTaken_eq (w : WriteInFlight) (s : State) :
    countTaken (sendUp (.writeOk w.txn) (dropWrite w.txn (quiet s))) = lineTaken w s := rfl

/-- The checks of a cue line read nothing that the completion has changed. -/
theorem wellFormedCue_lineTaken (w : WriteInFlight) (s : State) (data : Line) :
    wellFormedCue (lineTaken w s) data = wellFormedCue s data := rfl

theorem cueLane_lineTaken (w : WriteInFlight) (s : State) (lane : LaneId) :
    cueLane (lineTaken w s) lane = cueLane s lane := by cases lane <;> rfl

theorem writeCompletes_failed (w : WriteInFlight) (s : State) :
    writeCompletes w false s = sendUp (.writeError w.txn) (dropWrite w.txn s) := rfl

theorem writeCompletes_other {w : WriteInFlight} (h : w.binding.kind ≠ .cue) (s : State) :
    writeCompletes w true s = sendUp (.writeOk w.txn) (dropWrite w.txn s) := by
  simp [writeCompletes, h]

theorem writeCompletes_cue {w : WriteInFlight} (h : w.binding.kind = .cue) (s : State) :
    writeCompletes w true s = cueIntake w.data w.enables (sendUp (.writeOk w.txn) (dropWrite w.txn s)) := by
  simp [writeCompletes, h]

/-- A cue that arrives at a lane, with the raise of an overrun written out (R107, R108, R112). -/
theorem cueArrives_lineTaken (w : WriteInFlight) (s : State) (lane : LaneId) (c : Cue) :
    let arrival := laneArrive (decide (s.ctl.state = .running) || decide (s.ctl.state = .held)) s.ctl.position c (cueLane s lane)
    cueArrives lane c (lineTaken w s) =
      if arrival.2 then afterRaise s.sound.ramp .cueOverrun (putLane lane arrival.1 (lineTaken w s))
      else putLane lane arrival.1 (lineTaken w s) := by
  unfold cueArrives
  rw [isPlaying_eq, cueLane_lineTaken]
  simp only [raiseFault_eq]
  rfl

/-- The completion of a cue write, all of its bytes enabled, that is a cue. -/
theorem cueWrite_completes {s : State} {w : WriteInFlight} {c : Cue} (kind : w.binding.kind = .cue)
    (whole : w.enables = BitVec.allOnes 64) (h : wellFormedCue s w.data = some c) :
    writeCompletes w true (quiet s) = cueFiltered c (lineTaken w s) := by
  rw [writeCompletes_cue kind, whole, cueIntake_cue, countTaken_eq]
  rw [countTaken_eq, wellFormedCue_lineTaken, h]

end Sys2Proof.Machine

namespace Sys2Proof.Settled

open Sys2Proof.Machine

/-- Settles O14: the completion goes upstream, and a cue line has one fate, by its checks, its filter and the show state. -/
theorem writeCompletes : Obligations.WriteCompletes := by
  unfold Obligations.WriteCompletes
  refine ⟨fun txn ok s w on h => ⟨?_, ?_, ?_, ?_⟩, fun s data c => ⟨?_, ?_⟩,
    fun x track => ⟨fun i hit before => ?_, fun miss => ?_⟩, fun l k n => ⟨rfl, lineField_eq l k n⟩,
    fun s txn => ⟨fun w => awaitedWrite_some, awaitedWrite_none s txn⟩⟩
  · rintro rfl
    rw [exec_writeCompletion on h, writeCompletes_failed]; rfl
  · rintro rfl kind
    rw [exec_writeCompletion on h, writeCompletes_other kind]; rfl
  · rintro rfl kind enables
    rw [exec_writeCompletion on h, writeCompletes_cue kind, cueIntake_partial enables]; rfl
  · rintro rfl kind whole
    rw [exec_writeCompletion on h]
    refine ⟨fun malformed => ?_, fun c cue => ?_⟩
    · rw [writeCompletes_cue kind, whole, cueIntake_malformed]
      · rfl
      · exact malformed
    · rw [cueWrite_completes kind whole cue]
      refine ⟨fun reject => ?_, fun accepted idle => ?_, fun empty ended lane action => ?_⟩
      · rw [cueFiltered_reject]
        · rfl
        · exact reject
      · obtain ⟨lane, action⟩ := lane_of_not_reject accepted
        rw [cueFiltered_lane (s := lineTaken w s) action, cueToLane_ignored (s := lineTaken w s) idle]
        rfl
      · have named : filterActionFor (lineTaken w s).cues c.track = laneAction lane := by
          cases lane <;> exact action
        rw [cueFiltered_lane named, cueToLane_arrives (s := lineTaken w s) empty ended, cueArrives_lineTaken]
        cases lane <;> rfl
  · rintro plane ⟨version, register, order, index, cue⟩ ready
    exact (wellFormedCue_iff s data c).mpr ⟨⟨(lineByte_eq_iff data 0 1#8).mpr version, (cueCrcOk_iff data).mpr register, order⟩,
      plane, (cuePlaneOf_iff data plane).mpr index, Bool.or_eq_true_iff.mpr (.inl ((planeReady_iff s plane).mpr ready)),
      cue.trans (cueOfLine_eq data plane).symm⟩
  · intro h
    obtain ⟨⟨version, register, order⟩, plane, index, ready, cue⟩ := (wellFormedCue_iff s data c).mp h
    refine ⟨plane, ⟨(lineByte_eq_iff data 0 1#8).mp version, (cueCrcOk_iff data).mp register, order,
      (cuePlaneOf_iff data plane).mp index, cue.trans (cueOfLine_eq data plane)⟩, ?_⟩
    exact (Bool.or_eq_true_iff.mp ready).imp (planeReady_iff s plane).mp planeKeptByTie_lost
  · exact filterActionFor_first ((filterMatches_iff _ _).mpr hit) fun j hj m => before j hj ((filterMatches_iff _ _).mp m)
  · exact filterActionFor_default fun i m => miss i ((filterMatches_iff _ _).mp m)

end Sys2Proof.Settled
end

section
/-! SUPPORT. Proofs/Timebase.lean: the microsecond that passes with no command waiting, and the expiries that are then due (R18,
R25, R27, R30, R154). -/

namespace Sys2Proof.Machine

/-! ### When an expiry is due -/

theorem timeBefore_iff (x y : Time) : timeBefore x y = true ↔ (x - y).toInt < 0 := by
  rw [timeBefore, BitVec.msb_eq_toInt, decide_eq_true_iff]

theorem isInternal_iff (s : State) : isInternal s = true ↔ ∃ r, s.ctl.record = some r ∧ r.sync = .internal := by
  unfold isInternal
  cases s.ctl.record with
  | none => simp
  | some r => simp

theorem windowDue_iff (s : State) : windowDue s = true ↔ s.clock.substate = .tracking ∧ isInternal s = false ∧
    timeBefore (s.clock.expected + BitVec.ofNat 48 s.clock.window) s.clock.timebase = true := by
  simp [windowDue, and_assoc]

theorem internalDue_iff (s : State) : internalDue s = true ↔ s.clock.substate = .tracking ∧ isInternal s = true ∧
    ¬ timeBefore s.clock.timebase s.clock.expected = true := by
  simp [internalDue, and_assoc]

theorem anchorDue_iff (s : State) : anchorDue s = true ↔ s.clock.substate = .awaitingAnchor ∧
    ∃ d, s.clock.anchorDeadline = some d ∧ ¬ timeBefore s.clock.timebase d = true := by
  unfold anchorDue
  cases s.clock.anchorDeadline <;> simp

theorem watchdogDue_iff (s : State) : watchdogDue s = true ↔
    ∃ d, s.sup.watchdog.deadline = some d ∧ ¬ timeBefore s.clock.timebase d = true := by
  unfold watchdogDue
  cases s.sup.watchdog.deadline <;> simp

/-! ### What is queued -/

/-- A command as a queue of its own, or none. -/
def dueList (c : Instr) (b : Bool) : List Instr := if b then [c] else []

/-- At most one of the Show Clock's expiries is due: the sub-state and the source tell them apart. -/
theorem clockExpiry_exclusive (s : State) : (windowDue s = true → internalDue s = false ∧ anchorDue s = false) ∧
    (internalDue s = true → anchorDue s = false) := by
  unfold windowDue internalDue anchorDue
  cases s.clock.substate with
  | idle => simp
  | awaitingAnchor => simp
  | tracking => cases isInternal s <;> simp

theorem clockExpiryDue_toList (s : State) : (clockExpiryDue s).toList = dueList .windowExpiry (windowDue s) ++
    dueList .internalExpiry (internalDue s) ++ dueList .anchorTimeout (anchorDue s) := by
  obtain ⟨window, internal⟩ := clockExpiry_exclusive s
  unfold clockExpiryDue
  cases hw : windowDue s
  · cases hi : internalDue s
    · cases anchorDue s <;> rfl
    · rw [internal hi]; rfl
  · obtain ⟨hi, ha⟩ := window hw
    rw [hi, ha]; rfl

/-- The Show Clock's expiry and the watchdog's are queued in one order or the other (log 4). -/
theorem dueExpiries_orders (s : State) :
    dueExpiries s = (clockExpiryDue s).toList ++ dueList .watchdogExpiry (watchdogDue s) ∨
      dueExpiries s = dueList .watchdogExpiry (watchdogDue s) ++ (clockExpiryDue s).toList := by
  unfold dueExpiries
  cases clockExpiryDue s with
  | none => cases watchdogDue s <;> exact .inl rfl
  | some c =>
    cases watchdogDue s
    · exact .inl rfl
    · cases Config.watchdogFirst s.free
      · exact .inl rfl
      · exact .inr rfl

/-! ### The microsecond -/

theorem step_idle {s : State} (h : s.pending = []) : step s = .next (idle s) := by
  unfold step; rw [h]

theorem countMicrosecond_quiet (s : State) : countMicrosecond (quiet s) = { s with
    clock := { s.clock with timebase := s.clock.timebase + 1#48, edgeSeen := false }
    sup := { s.sup with watchdog := { s.sup.watchdog with tickSeen := false } }
    count := { s.count with commitSeen := false }
    path := { s.path with planesLost := [] }
    out := {} } := rfl

/-- Settles O2: an idle step counts one microsecond and queues what is then due. -/
theorem idleStepCountsOneMicrosecond : Obligations.IdleStepCountsOneMicrosecond := by
  unfold Obligations.IdleStepCountsOneMicrosecond
  refine ⟨fun s empty => ⟨fun on => ?_, fun off => ?_⟩, timeBefore_iff, fun s => ?_⟩
  · rw [step_idle empty, idle, if_pos on, countMicrosecond_quiet]; rfl
  · rw [step_idle empty, idle, if_neg (by simp [off])]; rfl
  · have orders := dueExpiries_orders s
    have length : (clockExpiryDue s).toList.length ≤ 1 := by cases clockExpiryDue s <;> simp
    rw [clockExpiryDue_toList] at orders length
    simp only [← timeBefore_iff]
    exact ⟨isInternal_iff s, windowDue_iff s, internalDue_iff s, anchorDue_iff s, watchdogDue_iff s, length, orders⟩

end Sys2Proof.Machine
end

section
/-! SUPPORT. Proofs/Playing.lean: the Show Clock leaving IDLE, and START, HOLD and RESUME, each as the state it leaves (R20, R22,
R23, R47 to R49, R90, R93, R110, R111). -/

namespace Sys2Proof.Machine

/-! ### The Show Clock leaving IDLE -/

theorem unitOffset_one (r : EditRate) : unitOffset r 1 = 1000000 * rateD r / rateN r := by
  rw [unitOffset, Nat.one_mul]

/-- The pulse that follows an anchor is expected one unit after it (R20). -/
theorem expectedTime_zero (r : EditRate) (a : Time) :
    expectedTime r a 0 = a + BitVec.ofNat 48 (1000000 * rateD r / rateN r) := by
  rw [expectedTime, Nat.zero_add, unitOffset_one]

theorem isInternal_eq {s : State} {r : ShowRecord} (h : s.ctl.record = some r) : isInternal s = (r.sync == .internal) := by
  unfold isInternal; rw [h]

theorem showRate_eq {s : State} {r : ShowRecord} (h : s.ctl.record = some r) : showRate s = r.editRate := by
  unfold showRate; rw [h]

theorem showTotal_eq {s : State} {r : ShowRecord} (h : s.ctl.record = some r) : showTotal s = totalDuration r := by
  unfold showTotal; rw [h]

/-- START and RESUME take the Show Clock out of IDLE as `leavesIdle` writes out (R23). -/
theorem clockLeaves_eq {s : State} {r : ShowRecord} (h : s.ctl.record = some r) :
    clockLeaves s = { s with clock := leavesIdle r s.clock } := by
  unfold clockLeaves leavesIdle deadlineFrom anchorAt
  dsimp only
  rw [isInternal_eq h, showRate_eq h, expectedTime_zero, unitOffset_one]
  cases r.sync <;> rfl

/-! ### START, HOLD, RESUME -/

/-- The last row of START and RESUME: no latch stands (R47, R49). -/
theorem unlatchedCheck_pass (s : State) : (unlatchedCheck s).pass = decide (outputCondition s ≠ .blankLatched) := by
  unfold unlatchedCheck outputCondition
  cases anyLatched s
  · by_cases h : 0 < s.sup.countdown <;> simp [h]
  · simp

theorem stateCheck_agrees (st : ShowState) (s : State) : Agree (stateCheck st s) ⟨s.ctl.state = st, .refusedState, 1⟩ :=
  ⟨rfl, rfl, rfl⟩

theorem unlatchedCheck_agrees (s : State) : Agree (unlatchedCheck s) ⟨outputCondition s ≠ .blankLatched, .refusedState, 2⟩ :=
  ⟨unlatchedCheck_pass s, rfl, rfl⟩

/-- A request that the link receives is answered as its table of checks judges it, its bytes acknowledged (R157, R159). -/
theorem request_judged {s accepted : State} {rows : List Row} {n : Nat} {f : State → State} (linked : Linked s)
    (h : f (quiet s) = judged s accepted rows) :
    (.next (onLink n s f) : Host.Outcome State Fault Refusal) = .next (acknowledging n (judged s accepted rows)) := by
  rw [onLink_linked linked, h]

theorem showStarted_eq {s : State} {r : ShowRecord} (h : s.ctl.record = some r) : showStarted (quiet s) = { s with
    ctl := { s.ctl with state := .running, position := 0 }
    clock := leavesIdle r { s.clock with accepted := 0, glitches := 0, missed := 0, period := 0, span := 0 }
    cues := lanesAfter s.cues 0 (totalDuration r)
    link := answeredWith s.link (2#7 ||| (if laneLow 0 (totalDuration r) s.cues.laneA then 16#7 else 0#7) |||
      (if laneLow 0 (totalDuration r) s.cues.laneB then 32#7 else 0#7))
    out := {} } := by
  have total : showTotal (quiet s) = totalDuration r := showTotal_eq h
  unfold showStarted; dsimp only
  rw [total, clockLeaves_eq (r := r)]
  · obtain ⟨cues, link, rest⟩ := activateLanes_does 0 (totalDuration r)
      { setShowState .running ((quiet s).setCtl { s.ctl with position := 0 }) with
        clock := leavesIdle r { s.clock with accepted := 0, glitches := 0, missed := 0, period := 0, span := 0 } }
    have events (x y z : BitVec 7) : x ||| (2#7 ||| y ||| z) = x ||| 2#7 ||| y ||| z := by
      rw [← BitVec.or_assoc, ← BitVec.or_assoc]
    refine (congrArg (answer .ok 0) (rest.trans (by rw [cues, link]))).trans ?_
    rw [answeredWith, events]
    rfl
  · exact h

theorem showResumed_eq {s : State} {r : ShowRecord} (h : s.ctl.record = some r) : showResumed (quiet s) = { s with
    ctl := { s.ctl with state := .running }
    clock := leavesIdle r s.clock
    sound := { s.sound with ramp := rampTo s.sound .unity }
    link := answeredWith s.link 2#7
    out := {} } := by
  unfold showResumed
  rw [clockLeaves_eq (r := r)]
  · rfl
  · exact h

theorem showHeld_eq (s : State) : answer .ok 0 (holdShow s.sound.ramp (quiet s)) = { s with
    ctl := { s.ctl with state := .held }
    clock := { s.clock with substate := .idle, anchorDeadline := none }
    sound := { s.sound with ramp := rampTo s.sound .silence, activeMask := s.sound.pendingMask }
    link := answeredWith s.link 2#7
    out := {} } := by
  rw [holdShow, startRamp_sound]; rfl

/-- Settles O27: START is judged by its two rows, and takes the clock out of IDLE and both lanes to p 0. -/
theorem startBeginsTheShow : Obligations.StartBeginsTheShow := by
  unfold Obligations.StartBeginsTheShow
  intro s r linked record
  exact request_judged linked (checked_eq_judged
    (.cons (stateCheck_agrees .primed s) (.cons (unlatchedCheck_agrees s) .nil)) (showStarted_eq record))

/-- Settles O28: HOLD is judged by its one row, and holds the show as the Supervisor does. -/
theorem holdFreezesTheShow : Obligations.HoldFreezesTheShow := by
  unfold Obligations.HoldFreezesTheShow
  intro s linked
  exact request_judged linked (checked_eq_judged (.cons (stateCheck_agrees .running s) .nil) (showHeld_eq s))

/-- Settles O29: RESUME is judged by its two rows, and takes the clock out of IDLE with a ramp to unity. -/
theorem resumeGoesOn : Obligations.ResumeGoesOn := by
  unfold Obligations.ResumeGoesOn
  intro s r linked record
  exact request_judged linked (checked_eq_judged
    (.cons (stateCheck_agrees .held s) (.cons (unlatchedCheck_agrees s) .nil)) (showResumed_eq record))

end Sys2Proof.Machine
end

section
/-! SUPPORT. Proofs/Parameters.lean: the writes of the FILTER table, the low marks and the CLOCK record (R21, R104, R111). -/

namespace Sys2Proof.Machine

theorem filterActionOf_eq (b : Byte) : filterActionOf b = [FilterAction.laneA, .laneB, .reject][b.toNat]? := by
  unfold filterActionOf
  rcases h : b.toNat with _ | _ | _ | n <;> rfl

/-- Table 11-17 names an action for the codes 0 to 2. -/
theorem filterActionOf_cases (b : Byte) :
    (b.toNat ≤ 2 ∧ ∃ a, filterActionOf b = some a) ∨ (¬ b.toNat ≤ 2 ∧ filterActionOf b = none) := by
  rw [filterActionOf_eq, List.getElem?_eq_none_iff]
  by_cases h : b.toNat ≤ 2
  · exact .inl ⟨h, _, List.getElem?_eq_getElem (by simpa using Nat.lt_succ_of_le h)⟩
  · exact .inr ⟨h, by simpa [Nat.succ_le_iff] using h⟩

/-- A write that carries the code of an action is judged by the code's range, and carried out with the action that it names. -/
theorem actionWrite_judged (s : State) (b : Byte) (f : FilterAction → State → State) :
    (match filterActionOf b with
      | none => answer .refusedValue 2 (quiet s)
      | some a => f a (quiet s)) =
      judged s (f ((filterActionOf b).getD .laneA) (quiet s)) [⟨b.toNat ≤ 2, .refusedValue, 2⟩] := by
  rcases filterActionOf_cases b with ⟨inside, a, named⟩ | ⟨outside, unnamed⟩
  · rw [named]; simp [judged, inside]
  · rw [unnamed]; simp [judged, outside, answer_quiet]

theorem clockChecks_agree (w : BitVec 16) (l : Byte) (s : State) : List.Forall₂ Agree (clockChecks w l s)
    [⟨s.ctl.state ≠ .running && s.ctl.state ≠ .held, .refusedState, 0⟩,
     ⟨100 ≤ w.toNat && w.toNat ≤ 4000 && 1 ≤ l.toNat && l.toNat ≤ 15, .refusedValue, 0⟩] := by
  have playing : (s.ctl.state != .running && s.ctl.state != .held) =
      (decide (s.ctl.state ≠ .running) && decide (s.ctl.state ≠ .held)) := by cases s.ctl.state <;> rfl
  exact .cons ⟨playing, rfl, rfl⟩ (.cons ⟨rfl, rfl, rfl⟩ .nil)

/-- Settles O49: each write is judged by the range of what it carries, and stores that alone. -/
theorem parameterWritesStoreTheirFields : Obligations.ParameterWritesStoreTheirFields := by
  unfold Obligations.ParameterWritesStoreTheirFields
  refine ⟨fun s linked => ⟨fun i w => ?_, fun b => ?_, fun lane b => ?_, fun w l => ?_⟩, filterActionOf_eq⟩
  · exact request_judged linked (actionWrite_judged s w.action fun a s => answer .ok 0
      (s.setCues { s.cues with
        filters := vput s.cues.filters i { enabled := w.enabled, matchValue := w.matchValue, mask := w.mask, action := a } }))
  · exact request_judged linked (actionWrite_judged s b fun a s =>
      answer .ok 0 (s.setCues { s.cues with defaultAction := a }))
  · exact request_judged linked (checked_eq_judged (.cons ⟨rfl, rfl, rfl⟩ .nil)
      (by cases lane <;> rfl))
  · exact request_judged linked (checked_eq_judged (clockChecks_agree w l s) rfl)

end Sys2Proof.Machine
end

section
/-! SUPPORT. Proofs/Supply.lean: the power-on reset and the loss of the supply (R18, R66, R141, R157). -/

namespace Sys2Proof.Machine

/-- Settles O55: everything at its power-on value but what the store, the backup domain and the pins keep. -/
theorem powerOnReadsTheStore : Obligations.PowerOnReadsTheStore := by
  unfold Obligations.PowerOnReadsTheStore
  refine fun s => ⟨fun held readable straps => ?_, fun fails => rfl⟩
  have secure : (if supplyKept held s then s.secure else {}) =
      if held = true ∧ s.power.backupHeld = true then s.secure else {} := by simp [supplyKept]
  show Host.Outcome.next
    (if readable then loadRam (powerBlocks held readable straps s) else powerBlocks held readable straps s) = _
  rw [loadRam_eq]
  unfold powerBlocks powerCount
  rw [secure]
  cases readable
  · rfl
  · by_cases high : 48 ≤ s.count.store.log.length <;> simp [high]

end Sys2Proof.Machine
end

section
/-! SUPPORT. Proofs/Pacing.lean: the edges of FSYNC_IN and the Show Clock's expiries: which judgement an edge gets, what it does
to the clock, and the advance that it makes (R19, R22, R24 to R30, R35). -/

namespace Sys2Proof.Machine

/-! ### Edges that make no advance -/

theorem exec_fsyncInEdge_unseen {s : State} (on : s.power.on = true) (h : s.power.brstLow = true ∨ s.clock.edgeSeen = true) :
    exec .fsyncInEdge s = .next (quiet s) := by
  show Host.Outcome.next (whenOn s _) = _
  rw [whenOn_on on]
  have unseen : ((quiet s).power.brstLow || (quiet s).clock.edgeSeen) = true := Bool.or_eq_true_iff.mpr h
  exact congrArg _ (if_pos unseen)

theorem exec_fsyncInEdge {s : State} (on : s.power.on = true) (high : s.power.brstLow = false)
    (fresh : s.clock.edgeSeen = false) : exec .fsyncInEdge s = .next (clockEdge (quiet s)) := by
  show Host.Outcome.next (whenOn s _) = _
  rw [whenOn_on on]
  have seen : ¬ ((quiet s).power.brstLow || (quiet s).clock.edgeSeen) = true := by simp [high, fresh]
  exact congrArg _ (if_neg seen)

theorem clockEdge_idle {s : State} (h : s.clock.substate = .idle) : clockEdge s = countEdge s := by
  unfold clockEdge; rw [h]

theorem clockEdge_awaiting {s : State} (h : s.clock.substate = .awaitingAnchor) : clockEdge s = anchorEdge (countEdge s) := by
  unfold clockEdge; rw [h]

theorem clockEdge_internal {s : State} (h : s.clock.substate = .tracking) (source : isInternal s = true) :
    clockEdge s = countEdge s := by
  unfold clockEdge; rw [h]; exact if_pos source

theorem clockEdge_projector {s : State} (h : s.clock.substate = .tracking) (source : isInternal s = false) :
    clockEdge s = judgeEdge (countEdge s) := by
  unfold clockEdge; rw [h]; exact if_neg (by simp [source])

/-- An edge in TRACKING with the projector is judged, once counted (R26). -/
theorem exec_fsyncInEdge_judged {s : State} (on : s.power.on = true) (high : s.power.brstLow = false)
    (fresh : s.clock.edgeSeen = false) (tracking : s.clock.substate = .tracking) (source : isInternal s = false) :
    exec .fsyncInEdge s = .next (judgeEdge (countEdge (quiet s))) := by
  rw [exec_fsyncInEdge on high fresh, clockEdge_projector (s := quiet s) tracking source]

/-- An edge before E - W is a glitch (R26). -/
theorem judgeEdge_early {s : State}
    (h : timeBefore s.clock.timebase (s.clock.expected - BitVec.ofNat 48 s.clock.window) = true) : judgeEdge s = glitch s :=
  if_pos h

/-- An edge after E + W is late (R26). -/
theorem judgeEdge_late {s : State}
    (h : timeBefore s.clock.timebase (s.clock.expected - BitVec.ofNat 48 s.clock.window) = false)
    (late : timeBefore (s.clock.expected + BitVec.ofNat 48 s.clock.window) s.clock.timebase = true) :
    judgeEdge s = lateEdge s := by
  unfold judgeEdge; rw [if_neg (by simp [h]), if_pos late]

/-- An edge inside the window, both ends included, is accepted (R26). -/
theorem judgeEdge_inside {s : State}
    (h : timeBefore s.clock.timebase (s.clock.expected - BitVec.ofNat 48 s.clock.window) = false)
    (late : timeBefore (s.clock.expected + BitVec.ofNat 48 s.clock.window) s.clock.timebase = false) :
    judgeEdge s = acceptEdge s := by
  unfold judgeEdge; rw [if_neg (by simp [h]), if_neg (by simp [late])]

/-- Settles O16: an edge that is not seen, one counted alone, and one counted a glitch. -/
theorem edgeWithoutAdvance : Obligations.EdgeWithoutAdvance := by
  unfold Obligations.EdgeWithoutAdvance
  refine fun s on => ⟨exec_fsyncInEdge_unseen on, fun high fresh =>
    ⟨fun idle => ?_, fun tracking source => ?_, fun tracking source early => ?_⟩⟩
  · rw [exec_fsyncInEdge on high fresh, clockEdge_idle (s := quiet s) idle]; rfl
  · rw [exec_fsyncInEdge on high fresh, clockEdge_internal (s := quiet s) tracking source]; rfl
  · rw [exec_fsyncInEdge_judged on high fresh tracking source, judgeEdge_early (s := countEdge (quiet s)) early]; rfl

/-! ### SYNC_LOSS withdrawn, and the anchor edge -/

/-- SYNC_LOSS is withdrawn, and where it was active the withdrawal is reported (R28, R145). -/
theorem syncFound_eq (s : State) : syncFound s = { s with
    clock := { s.clock with syncLoss := false }
    sup := if s.clock.syncLoss then withdrawn [.syncLoss] s.sup else s.sup } := by
  unfold syncFound
  cases h : s.clock.syncLoss
  · have same : { s.clock with syncLoss := false } = s.clock := by rw [← h]
    rw [same]; rfl
  · rfl

/-- Settles O17: the anchor edge takes the anchor and withdraws SYNC_LOSS. -/
theorem anchorEdgeTakesTheAnchor : Obligations.AnchorEdgeTakesTheAnchor := by
  unfold Obligations.AnchorEdgeTakesTheAnchor
  intro s r on high fresh awaiting record
  have rate : showRate (countEdge (quiet s)) = r.editRate := showRate_eq record
  rw [exec_fsyncInEdge on high fresh, clockEdge_awaiting (s := quiet s) awaiting, anchorEdge, syncFound_eq, anchorAt, rate,
    expectedTime_zero]
  rfl

/-! ### The advance -/

/-- The Show Clock tracks on while the show runs on, and is IDLE once the show is held or has ended (R22). -/
theorem Advanced.substate {s t : State} (h : Advanced s t) (tracking : s.clock.substate = .tracking)
    (running : s.ctl.state = .running) : t.clock.substate = if t.ctl.state = .running then .tracking else .idle := by
  by_cases final : s.ctl.position + 1 = showTotal s
  · obtain ⟨ended, idle⟩ := h.ended final
    rw [idle, ended]; rfl
  · rcases h.going running final with on | held
    · rw [on, if_pos rfl, (h.clockGoes final (on.trans running.symm)).1, tracking]
    · rw [held, if_neg (by decide), (h.clockStops (.inr (by rw [held, running]; decide))).1]

/-- All of the clock but what a hold, the end of the show and SYNC_LOSS change is as the command set it. -/
theorem ClockKept.rest {c d : Clock} (h : ClockKept c d) :
    d = { c with substate := d.substate, anchorDeadline := d.anchorDeadline, syncLoss := d.syncLoss } := by
  rcases h with h | h <;> rw [h]

/-! ### An accepted edge -/

theorem faultOf_syncFound_self (s : State) : faultOf (syncFound s) .syncLoss =
    if s.clock.syncLoss then { faultOf s .syncLoss with condition := false } else faultOf s .syncLoss := by
  unfold syncFound; split
  · exact (faultOf_withdraw _ _ _).trans (if_pos rfl)
  · rfl

theorem faultOf_syncFound_other {k : FaultKind} (h : k ≠ .syncLoss) (s : State) : faultOf (syncFound s) k = faultOf s k := by
  unfold syncFound; split
  · exact (faultOf_withdraw _ _ _).trans (if_neg fun c => h c.symm)
  · rfl

theorem anyLatched_syncFound (s : State) : anyLatched (syncFound s) = anyLatched s := by
  unfold syncFound; split
  · exact anyLatched_modFault (f := fun e => { e with condition := false }) (fun _ => rfl) _
  · rfl

/-- The state in which an accepted edge makes its advance: the clock's own change, and SYNC_LOSS withdrawn (R26, R28, R29). -/
def edgeAccepted (s : State) : State := syncFound (s.setClock (acceptClock s))

theorem edgeAccepted_clock (s : State) : (edgeAccepted s).clock = { acceptClock s with syncLoss := false } := by
  rw [edgeAccepted, syncFound_eq]; rfl

theorem edgeAccepted_eq (s : State) : edgeAccepted s =
    { s with clock := (edgeAccepted s).clock, sup := { s.sup with faults := (edgeAccepted s).sup.faults } } := by
  rw [edgeAccepted, syncFound_eq]; dsimp only; split <;> rfl

/-- An accepted edge is an advance of the show as the edge found it (R26, R31). -/
theorem acceptEdge_advanced (s : State) : Advanced s (acceptEdge s) := by
  have clock := edgeAccepted_clock s
  refine (advance_does (.inl rfl) (edgeAccepted s)).ofSyncLoss (edgeAccepted_eq s) ?_ (.inl ?_) (fun k hk => ?_) ?_
  · rw [clock]; rfl
  · rw [advance_syncLoss, clock]
  · exact faultOf_syncFound_other hk _
  · exact anyLatched_syncFound _

theorem acceptEdge_clock (s : State) : (acceptEdge s).clock = { acceptClock s with
    substate := (acceptEdge s).clock.substate
    anchorDeadline := (acceptEdge s).clock.anchorDeadline
    syncLoss := (acceptEdge s).clock.syncLoss } := by
  have kept : ClockKept (edgeAccepted s).clock (acceptEdge s).clock := advance_clock _
  rw [edgeAccepted_clock] at kept
  exact kept.rest

/-- SYNC_LOSS after an accepted edge: not active, and withdrawn at the Supervisor if it was (R28, R145). -/
theorem acceptEdge_syncLoss (s : State) : (acceptEdge s).clock.syncLoss = false ∧ faultOf (acceptEdge s) .syncLoss =
    if s.clock.syncLoss then { faultOf s .syncLoss with condition := false } else faultOf s .syncLoss := by
  obtain ⟨condition, entry⟩ := advance_leaves_syncLoss (edgeAccepted s)
  exact ⟨condition.trans (congrArg (·.syncLoss) (edgeAccepted_clock s)), entry.trans (faultOf_syncFound_self _)⟩

/-- The period measured at an accepted edge, from the edge accepted before it (R29). -/
theorem measuredPeriod_eq {c : Clock} {last : Time} (h : c.lastAccepted = some last) :
    measuredPeriod c = Nat.min (c.timebase - last).toNat 4294967295 := by
  rw [measuredPeriod, h]; rfl

theorem frontierBehind_iff (f : Option Nat) (v : Nat) : frontierBehind f v = true ↔ ∀ u, f = some u → u < v := by
  cases f <;> simp [frontierBehind]

theorem isLapsed_iff (x : KeySlot) : isLapsed x = true ↔ ∃ f m grace, x = .lapsed f m grace := by
  cases x <;> simp [isLapsed]

/-- Settles O18: an accepted edge withdraws SYNC_LOSS, takes the anchor afresh, and advances. -/
theorem acceptedEdgeAdvances : Obligations.AcceptedEdgeAdvances := by
  unfold Obligations.AcceptedEdgeAdvances
  refine ⟨fun s r last on high fresh tracking source record accepted early late => ?_, frontierBehind_iff,
    fun late => ⟨rfl, rfl⟩, isLapsed_iff, fun s k => ⟨beq_iff_eq, by cases k <;> rfl⟩⟩
  have rate : showRate (countEdge (quiet s)) = r.editRate := showRate_eq record
  have period := measuredPeriod_eq (c := (countEdge (quiet s)).clock) accepted
  have advanced : Advanced { s with out := {} } (acceptEdge (countEdge (quiet s))) :=
    (acceptEdge_advanced (countEdge (quiet s))).ofClock rfl rfl rfl
  have clock := acceptEdge_clock (countEdge (quiet s))
  rw [acceptClock, anchorAt, rate, expectedTime_zero, period] at clock
  obtain ⟨condition, entry⟩ := acceptEdge_syncLoss (countEdge (quiet s))
  exact ⟨_, (exec_fsyncInEdge_judged on high fresh tracking source).trans (congrArg _ (judgeEdge_inside early late)),
    advanced, congrArg (·.anchor) clock, congrArg (·.unitCount) clock, congrArg (·.expected) clock,
    congrArg (·.lastAccepted) clock, congrArg (·.consecutive) clock, congrArg (·.accepted) clock, congrArg (·.period) clock,
    congrArg (·.span) clock, condition, entry, congrArg (·.edges) clock, congrArg (·.glitches) clock,
    congrArg (·.missed) clock, congrArg (·.timebase) clock, congrArg (·.edgeSeen) clock, advanced.substate tracking⟩

/-! ### Expiries -/

theorem exec_windowExpiry {s : State} (on : s.power.on = true) :
    exec .windowExpiry s = .next (if windowDue s then miss (quiet s) else quiet s) :=
  congrArg Host.Outcome.next (whenOn_on on _)

theorem exec_internalExpiry {s : State} (on : s.power.on = true) :
    exec .internalExpiry s = .next (if internalDue s then internalExpires (quiet s) else quiet s) :=
  congrArg Host.Outcome.next (whenOn_on on _)

theorem exec_anchorTimeout {s : State} (on : s.power.on = true) :
    exec .anchorTimeout s = .next (if anchorDue s then anchorExpires (quiet s) else quiet s) :=
  congrArg Host.Outcome.next (whenOn_on on _)

/-- A miss is an advance, with a raise of SYNC_LOSS at the loss limit among its reactions (R27, R28). -/
theorem miss_eq (s : State) : ∃ reactions, Reactions reactions ∧ miss s = advance reactions (s.setClock (missClock s)) := by
  refine ⟨_, ?_, rfl⟩
  split
  · exact .inr rfl
  · exact .inl rfl

theorem miss_advanced (s : State) : Advanced s (miss s) := by
  obtain ⟨reactions, h, e⟩ := miss_eq s
  rw [e]
  exact (advance_does h _).ofClock rfl rfl rfl

theorem miss_clock (s : State) : (miss s).clock = { missClock s with
    substate := (miss s).clock.substate
    anchorDeadline := (miss s).clock.anchorDeadline
    syncLoss := (miss s).clock.syncLoss } := by
  obtain ⟨reactions, _, e⟩ := miss_eq s
  have kept : ClockKept (missClock s) (miss s).clock := by rw [e]; exact advance_clock _
  exact kept.rest

/-- SYNC_LOSS after a miss: active, and raised if it was not, when the count comes to the loss limit; else as it was (R28). -/
theorem miss_syncLoss (s : State) : (miss s).clock.syncLoss = (s.clock.syncLoss || missRaises s) ∧
    faultOf (miss s) .syncLoss = conditionEntry (policyOfKind s .syncLoss).policy .syncLoss s.clock.syncLoss
      (s.clock.syncLoss || missRaises s) (faultOf s .syncLoss) := by
  unfold miss
  cases missRaises s
  · obtain ⟨condition, entry⟩ := advance_leaves_syncLoss (s.setClock (missClock s))
    rw [Bool.or_false, conditionEntry_same]
    exact ⟨condition, entry⟩
  · rw [Bool.or_true]
    exact advance_miss_own (s.setClock (missClock s))

/-- A condition that can only become active is raised exactly when it was not active and is. -/
theorem conditionEntry_active (p : Policy) (k : FaultKind) (was x : Bool) (e : FaultEntry) :
    conditionEntry p k was (was || x) e = if was = false ∧ (was || x) = true then raisedEntry p k e else e := by
  cases was
  · cases x <;> rfl
  · rfl

theorem internalExpires_advanced (s : State) : Advanced s (internalExpires s) :=
  (advance_does (.inl rfl) (s.setClock (nextUnit s s.clock))).ofClock rfl rfl rfl

/-- The unit count carried on by one short of its greatest value, and E from the anchor it had (R20). -/
theorem nextUnit_eq {s : State} {r : ShowRecord} (h : s.ctl.record = some r) (c : Clock) (small : c.unitCount < 16777215) :
    nextUnit s c = { c with
      unitCount := c.unitCount + 1
      expected := c.anchor + BitVec.ofNat 48 ((c.unitCount + 2) * 1000000 * rateD r.editRate / rateN r.editRate) } := by
  have one : satInc Config.maxUnit c.unitCount = c.unitCount + 1 := Nat.min_eq_left small
  rw [nextUnit, one, showRate_eq h]; rfl

/-- Settles O19: a window expiry is a miss and an internal expiry is none; both advance. -/
theorem expiriesAdvance : Obligations.ExpiriesAdvance := by
  unfold Obligations.ExpiriesAdvance
  intro s r on record small
  have next := nextUnit_eq (s := quiet s) record s.clock small
  refine ⟨fun due => ?_, fun due => ?_, fun idle => ?_, fun idle => ?_⟩
  · have clock := miss_clock (quiet s)
    rw [missClock, quiet_clock, next] at clock
    obtain ⟨condition, entry⟩ := miss_syncLoss (quiet s)
    have advanced := miss_advanced (quiet s)
    refine ⟨_, (exec_windowExpiry on).trans (congrArg _ (if_pos due)), advanced, congrArg (·.anchor) clock,
      congrArg (·.unitCount) clock, congrArg (·.expected) clock, congrArg (·.missed) clock,
      congrArg (·.consecutive) clock, condition, ?_, congrArg (·.lastAccepted) clock,
      congrArg (·.accepted) clock, congrArg (·.timebase) clock, congrArg (·.edges) clock,
      congrArg (·.glitches) clock, congrArg (·.period) clock, congrArg (·.span) clock,
      congrArg (·.edgeSeen) clock, advanced.substate ((windowDue_iff s).mp due).1⟩
    rw [condition, entry]
    exact conditionEntry_active _ _ _ _ _
  · have kept : ClockKept (nextUnit (quiet s) s.clock) (internalExpires (quiet s)).clock := advance_clock _
    have clock := kept.rest
    rw [next] at clock
    obtain ⟨condition, entry⟩ := advance_leaves_syncLoss ((quiet s).setClock (nextUnit (quiet s) s.clock))
    have advanced := internalExpires_advanced (quiet s)
    exact ⟨_, (exec_internalExpiry on).trans (congrArg _ (if_pos due)), advanced, congrArg (·.anchor) clock,
      congrArg (·.unitCount) clock, congrArg (·.expected) clock, congrArg (·.missed) clock,
      congrArg (·.consecutive) clock, condition, entry, congrArg (·.lastAccepted) clock,
      congrArg (·.accepted) clock, congrArg (·.timebase) clock, congrArg (·.edges) clock,
      congrArg (·.glitches) clock, congrArg (·.period) clock, congrArg (·.span) clock,
      congrArg (·.edgeSeen) clock, advanced.substate ((internalDue_iff s).mp due).1⟩
  · rw [exec_windowExpiry on, if_neg (by simp [idle])]; rfl
  · rw [exec_internalExpiry on, if_neg (by simp [idle])]; rfl

/-! ### A late edge -/

/-- Settles O20: a late edge is the miss that the window expiry takes, then a glitch while the clock tracks on. -/
theorem lateEdgeIsAMissFirst : Obligations.LateEdgeIsAMissFirst := by
  unfold Obligations.LateEdgeIsAMissFirst
  intro s on high fresh tracking source early due
  have late : timeBefore (s.clock.expected + BitVec.ofNat 48 s.clock.window) s.clock.timebase = true :=
    ((windowDue_iff s).mp due).2.2
  have glitches : (miss (countEdge (quiet s))).clock.glitches = s.clock.glitches :=
    congrArg (·.glitches) (miss_clock (countEdge (quiet s)))
  have edges : (miss (countEdge (quiet s))).clock.edges = Nat.min (s.clock.edges + 1) 4294967295 :=
    congrArg (·.edges) (miss_clock (countEdge (quiet s)))
  refine ⟨miss (countEdge (quiet s)), lateEdge (countEdge (quiet s)), ?_, ?_, ?_, glitches, edges⟩
  · refine (exec_windowExpiry ?_).trans (congrArg _ (if_pos ?_))
    · exact on
    · exact due
  · rw [exec_fsyncInEdge_judged on high fresh tracking source, judgeEdge_late (s := countEdge (quiet s)) early late]
  · rw [← glitches]; rfl

/-! ### The anchor timeout -/

/-- A condition that is active is not raised again (R28). -/
theorem raiseCondition_active {k : FaultKind} {s : State} (h : detectorOf s k = true) (b : GainRamp) :
    raiseCondition b k s = s := if_pos h

/-- A condition that becomes active is raised, as `afterRaise` writes out (R145, R147, R151). -/
theorem raiseCondition_fresh {k : FaultKind} {s : State} (h : detectorOf s k = false) (b : GainRamp) :
    raiseCondition b k s = afterRaise b k (setDetector k true s) := by
  rw [raiseCondition, if_neg (by simp [h]), raiseFault_eq]

theorem isPrimed_iff (s : State) : isPrimed s = true ↔
    s.ctl.state = .primed ∨ s.ctl.state = .running ∨ s.ctl.state = .held ∨ s.ctl.state = .ended := by
  unfold isPrimed; cases s.ctl.state <;> simp

/-- Settles O21: the timeout drops the deadline, and raises SYNC_LOSS unless it is active. -/
theorem anchorTimeoutRaisesOnce : Obligations.AnchorTimeoutRaisesOnce := by
  unfold Obligations.AnchorTimeoutRaisesOnce
  refine ⟨fun s on => ⟨fun due active => ?_, fun due lost => ?_, fun idle => ?_⟩, isPrimed_iff⟩
  · have nothing := raiseCondition_active (k := .syncLoss) (s := (quiet s).setClock { s.clock with anchorDeadline := none })
      active s.sound.ramp
    rw [exec_anchorTimeout on, if_pos due]
    exact congrArg _ nothing
  · have raise := raiseCondition_fresh (k := .syncLoss) (s := (quiet s).setClock { s.clock with anchorDeadline := none })
      lost s.sound.ramp
    rw [exec_anchorTimeout on, if_pos due]
    exact congrArg _ raise
  · rw [exec_anchorTimeout on, if_neg (by simp [idle])]; rfl

end Sys2Proof.Machine
end

section
/-! SUPPORT. Proofs/Commits.lean: the commit of a showing at the advance to C, in every order of the reactions and at each command
that makes the advance (R135 to R137, R139, R140, R144). -/

namespace Sys2Proof.Machine

/-! ### The commit, step by step -/

/-- The RAM copy with a showing of slot `i` taken and its record appended (R135, steps 2 and 3). -/
def showingImage (s : State) (r : ShowRecord) (i : Fin 8) : CountImage :=
  { s.count.ram with
    licences := vput s.count.ram.licences i (mapLicence countShowing s.count.ram.licences[i])
    sequence := satInc maxSequence s.count.ram.sequence
    log := s.count.ram.log ++ [commitRecord s r i] }

/-- The state in which a commit comes to the Count Store: steps 2 to 4 of R135. -/
def showingTaken (s : State) (r : ShowRecord) (i : Fin 8) : State :=
  { s with
    count := { s.count with ram := showingImage s r i }
    ctl := { s.ctl with committed := true }
    link := { s.link with
      eventPending := s.link.eventPending ||| (if 48 ≤ s.count.ram.log.length + 1 then 8#7 else 0#7) ||| 4#7 } }

theorem commitShowing_eq (b : GainRamp) (r : ShowRecord) (i : Fin 8) (s : State) :
    commitShowing b r i s = storeCommit b i (showingTaken s r i) := by
  have length : (s.count.ram.log ++ [commitRecord s r i]).length = s.count.ram.log.length + 1 := by simp
  unfold commitShowing appendShowing showingTaken; dsimp only
  rw [length]
  split
  · rfl
  · rw [BitVec.or_zero]; rfl

/-- The Count Unit after step 5 of R135, by the state of the store. -/
def storedCount (i : Fin 8) (c : CountUnit) : CountUnit :=
  match c.status with
  | .ready => { c with status := .busy (commitImage [i] c.ram) }
  | .busy _ => { c with
      commitSeen := true, waiting := if i ∈ c.waiting then c.waiting else c.waiting ++ [i] }
  | .failed => { c with ram := suspendSlots [i] c.ram }

theorem storedCount_ready {c : CountUnit} (h : c.status = .ready) (i : Fin 8) :
    storedCount i c = { c with status := .busy (commitImage [i] c.ram) } := by
  unfold storedCount; rw [h]

theorem storedCount_busy {c : CountUnit} {w : StoreWrite} (h : c.status = .busy w) (i : Fin 8) : storedCount i c = { c with
    commitSeen := true, waiting := if i ∈ c.waiting then c.waiting else c.waiting ++ [i] } := by
  unfold storedCount; rw [h]

theorem storedCount_failed {c : CountUnit} (h : c.status = .failed) (i : Fin 8) :
    storedCount i c = { c with ram := suspendSlots [i] c.ram } := by
  unfold storedCount; rw [h]

/-- Step 5 of R135 changes the Count Unit, and leaves the committed flag and the Count Unit's events. -/
theorem storeCommit_does (b : GainRamp) (i : Fin 8) (s : State) : (storeCommit b i s).count = storedCount i s.count ∧
    (storeCommit b i s).ctl.committed = s.ctl.committed ∧ CountEventsSame s.link (storeCommit b i s).link := by
  unfold storeCommit; split <;> rename_i h
  · exact ⟨(storedCount_ready h i).symm, rfl, fun _ _ => rfl⟩
  · exact ⟨(storedCount_busy h i).symm, rfl, fun _ _ => rfl⟩
  · obtain ⟨flag, count, events⟩ := raiseFault_uncommitted b .storeFail (setRam (suspendSlots [i] s.count.ram) s)
    exact ⟨count.trans (storedCount_failed h i).symm, flag, events⟩

theorem storedCount_keeps (i : Fin 8) (c : CountUnit) : (storedCount i c).ram.sequence = c.ram.sequence ∧
    (storedCount i c).ram.log = c.ram.log ∧ (storedCount i c).ram.screenId = c.ram.screenId ∧
    (storedCount i c).blanked = c.blanked := by
  unfold storedCount; split <;> exact ⟨rfl, rfl, rfl, rfl⟩

theorem storedCount_ram {c : CountUnit} (h : c.status ≠ .failed) (i : Fin 8) : (storedCount i c).ram = c.ram := by
  unfold storedCount; split
  · rfl
  · rfl
  · exact absurd ‹_› h

theorem suspendSlots_own (i : Fin 8) (ram : CountImage) : (suspendSlots [i] ram).licences[i] = suspendSlot ram.licences[i] := by
  simp [suspendSlots]

theorem suspendSlots_other {i j : Fin 8} (h : j ≠ i) (ram : CountImage) :
    (suspendSlots [i] ram).licences[j] = ram.licences[j] := by
  simp [suspendSlots, h]

theorem licenceOf_suspendSlot (x : LicenceSlot) : licenceOf (suspendSlot x) = licenceOf x := by cases x <;> rfl

theorem licenceOf_mapLicence (f : Licence → Licence) (x : LicenceSlot) : licenceOf (mapLicence f x) = (licenceOf x).map f := by
  cases x <;> rfl

theorem suspendSlot_eq {x : LicenceSlot} {l : Licence} (h : licenceOf x = some l) : suspendSlot x = .suspended l := by
  cases x <;> simp_all [licenceOf, suspendSlot]

/-- Step 5 changes no slot but its own, and of its own the state alone (R140). -/
theorem storedCount_licences (i : Fin 8) (c : CountUnit) :
    licenceOf (storedCount i c).ram.licences[i] = licenceOf c.ram.licences[i] ∧
      ∀ j : Fin 8, j ≠ i → (storedCount i c).ram.licences[j] = c.ram.licences[j] := by
  unfold storedCount; split
  · exact ⟨rfl, fun _ _ => rfl⟩
  · exact ⟨rfl, fun _ _ => rfl⟩
  · exact ⟨by rw [suspendSlots_own, licenceOf_suspendSlot], fun j hj => suspendSlots_other hj _⟩

theorem showingImage_own (s : State) (r : ShowRecord) (i : Fin 8) :
    (showingImage s r i).licences[i] = mapLicence countShowing s.count.ram.licences[i] := vput_get_self _ _ _

theorem showingImage_active {s : State} {i : Fin 8} {k : Licence} (h : s.count.ram.licences[i] = .active k) (r : ShowRecord) :
    (showingImage s r i).licences[i] = .active (countShowing k) := by
  rw [showingImage_own, h]; rfl

theorem slotLicence_eq {x : LicenceSlot} {l : Licence} (h : licenceOf x = some l) : slotLicence x = l := by
  simp [slotLicence, h]

/-! ### The Count Unit's reaction -/

/-- The state with the blanked count set. -/
def withBlanked (n : Nat) (s : State) : State := s.setCount { s.count with blanked := n }

/-- The Count Unit moves the blanked count alone, and short of its greatest value exactly when the output is not OPEN (R134). -/
theorem countBlanked_eq (s : State) : ∃ n, countBlanked s = withBlanked n s ∧
    (s.count.blanked < 65535 → (outputCondition s = .openOutput ↔ n = s.count.blanked)) := by
  unfold countBlanked
  by_cases o : outputCondition s = .openOutput
  · exact ⟨s.count.blanked, if_pos o, by simp [o]⟩
  · refine ⟨_, if_neg o, fun small => ?_⟩
    have one : satInc Config.max16 s.count.blanked = s.count.blanked + 1 := Nat.min_eq_left small
    simp [o, one]

/-- The commit of the record `r` against slot `i` is due (R135). -/
structure CommitsShowing (s : State) (r : ShowRecord) (i : Fin 8) : Prop where
  full : isFull s = true
  due : commitDue s = true
  record : s.ctl.record = some r
  reserved : s.count.reserved = some i

theorem countAdvance_showing {s : State} {r : ShowRecord} {i : Fin 8} (h : CommitsShowing s r i) (b : GainRamp) :
    countAdvance b s = storeCommit b i (showingTaken (countBlanked s) r i) := by
  obtain ⟨_, ctl, reserved, _⟩ := countBlanked_same s
  have due : commitDue (countBlanked s) = true := (commitDue_countBlanked s).trans h.due
  have record : (countBlanked s).ctl.record = some r := (congrArg (·.record) ctl).trans h.record
  have slot : (countBlanked s).count.reserved = some i := reserved.trans h.reserved
  unfold countAdvance; dsimp only
  rw [if_pos h.full, if_pos due, record, slot, ← commitShowing_eq]

/-- The events of a commit: COMMITTED, and LOG_HIGH at 48 records or more (R135, R137). -/
theorem showingTaken_events (s : State) (r : ShowRecord) (i : Fin 8) :
    (showingTaken s r i).link.eventPending.getLsbD 2 = true ∧
    (showingTaken s r i).link.eventPending.getLsbD 3 =
      (s.link.eventPending.getLsbD 3 || decide (48 ≤ s.count.ram.log.length + 1)) ∧
    (showingTaken s r i).link.eventPending.getLsbD 6 = s.link.eventPending.getLsbD 6 := by
  unfold showingTaken; dsimp only
  by_cases h : 48 ≤ s.count.ram.log.length + 1 <;> simp [h]

/-- The record of a commit against a slot that holds a licence, field by field (R136). -/
theorem commitRecord_eq {s : State} {i : Fin 8} {l : Licence} (h : licenceOf s.count.ram.licences[i] = some l) (r : ShowRecord) :
    commitRecord s r i =
      { sequence := satInc maxSequence s.count.ram.sequence, slot := i, licenceId := l.licenceId, compositionId := r.compositionId
        commitTime := s.secure.time, duration := totalDuration r, outputAtCommit := outputCondition s
        blanked := s.count.blanked } := by
  rw [commitRecord, slotLicence_eq h]

theorem licenceOf_showingImage {s : State} {i : Fin 8} {l : Licence} (h : licenceOf s.count.ram.licences[i] = some l)
    (r : ShowRecord) : licenceOf (showingImage s r i).licences[i] =
      some { l with remaining := l.remaining - 1, used := l.used + 1 } := by
  rw [showingImage_own, licenceOf_mapLicence, h]; rfl

/-- What a commit does, of the state in which the Count Unit takes the advance. -/
theorem countAdvance_commitsShowing {s : State} {r : ShowRecord} {i : Fin 8} {l : Licence} (h : CommitsShowing s r i)
    (licence : licenceOf s.count.ram.licences[i] = some l) (b : GainRamp) : ShowingCommitted s r i l (countAdvance b s) := by
  obtain ⟨n, blank, opened⟩ := countBlanked_eq s
  rw [countAdvance_showing h, blank]
  have record := commitRecord_eq (s := withBlanked n s) licence r
  have taken := licenceOf_showingImage (s := withBlanked n s) licence r
  obtain ⟨committed, logHigh, storeDone⟩ := showingTaken_events (withBlanked n s) r i
  obtain ⟨count, flag, events⟩ := storeCommit_does b i (showingTaken (withBlanked n s) r i)
  obtain ⟨sequence, log, screen, blanked⟩ := storedCount_keeps i (showingTaken (withBlanked n s) r i).count
  obtain ⟨own, others⟩ := storedCount_licences i (showingTaken (withBlanked n s) r i).count
  generalize storeCommit b i (showingTaken (withBlanked n s) r i) = t at *
  rw [← count] at sequence log screen blanked own others
  exact {
    committed := flag
    committedEvent := (events 2 (.inl rfl)).trans committed
    logHigh := (events 3 (.inr (.inl rfl))).trans logHigh
    storeDone := (events 6 (.inr (.inr rfl))).trans storeDone
    sequence := sequence
    screenId := screen
    log := by
      refine ⟨outputCondition s, ?_, fun small => ?_, fun latched => ?_⟩
      · rw [log, sequence, blanked]
        exact congrArg (fun x => s.count.ram.log ++ [x]) record
      · rw [blanked]; exact opened small
      · unfold outputCondition; rw [latched]; rfl
    licence := own.trans taken
    others := fun j hj => (others j hj).trans (vput_get_other _ _ fun c => hj c.symm)
    ready := fun status => by rw [count, storedCount_ready (c := (showingTaken (withBlanked n s) r i).count) status]; rfl
    busy := fun w status => by rw [count, storedCount_busy (c := (showingTaken (withBlanked n s) r i).count) status]; rfl
    active := fun status k active => by
      refine ⟨countShowing k, ?_⟩
      rw [count, storedCount_ram (c := (showingTaken (withBlanked n s) r i).count) status]
      exact showingImage_active (s := withBlanked n s) active r
    failed := fun status => by
      rw [count, storedCount_failed (c := (showingTaken (withBlanked n s) r i).count) status]
      exact ⟨rfl, (suspendSlots_own i _).trans (suspendSlot_eq taken)⟩ }

/-! ### The commit among the other reactions -/

theorem foldl_uncommitted (b : GainRamp) (order : List Reaction) : ∀ s, .count ∉ order →
    Uncommitted s (order.foldl (react b) s) := by
  induction order with
  | nil => exact fun s _ => .refl s
  | cons q rest ih =>
    intro s absent
    have other : q ≠ .count := fun c => absent (c ▸ List.mem_cons_self)
    exact (react_uncommitted b s q other).trans (ih _ fun c => absent (List.mem_cons_of_mem _ c))

/-- What other reactions do before the Count Unit's and after it leaves what the commit does. -/
theorem ShowingCommitted.among {s u w t : State} {r : ShowRecord} {i : Fin 8} {l : Licence} (h : ShowingCommitted u r i l w)
    (count : u.count = s.count) (secure : u.secure = s.secure) (events : CountEventsSame s.link u.link)
    (latched : anyLatched s = true → anyLatched u = true) (after : Uncommitted w t) : ShowingCommitted s r i l t := by
  obtain ⟨flag, kept, later⟩ := after
  exact {
    committed := flag.trans h.committed
    committedEvent := (later 2 (.inl rfl)).trans h.committedEvent
    logHigh := by rw [later 3 (.inr (.inl rfl)), h.logHigh, events 3 (.inr (.inl rfl)), count]
    storeDone := by rw [later 6 (.inr (.inr rfl)), h.storeDone, events 6 (.inr (.inr rfl))]
    sequence := by rw [kept, ← count]; exact h.sequence
    screenId := by rw [kept, ← count]; exact h.screenId
    log := by
      obtain ⟨output, record, opened, blank⟩ := h.log
      rw [kept, ← count, ← secure]
      exact ⟨output, record, opened, fun g => blank (latched g)⟩
    licence := by rw [kept]; exact h.licence
    others := by rw [kept, ← count]; exact h.others
    ready := by rw [kept, ← count]; exact h.ready
    busy := by rw [kept, ← count]; exact h.busy
    active := by rw [kept, ← count]; exact h.active
    failed := by rw [kept, ← count]; exact h.failed }

/-- A showing is due to be committed at the next advance, to C: the show is full, and its reserved slot holds a licence (R135). -/
structure ShowingDue (s : State) (r : ShowRecord) (i : Fin 8) (l : Licence) : Prop where
  full : s.ctl.mark = .full
  uncommitted : s.ctl.committed = false
  record : s.ctl.record = some r
  reserved : s.count.reserved = some i
  licence : licenceOf s.count.ram.licences[i] = some l
  position : s.ctl.position + 1 = s.ctl.commitUnit

/-- All that a commit hangs on is the same. -/
structure CommitAlike (s u : State) : Prop where
  ctl : u.ctl = s.ctl
  count : u.count = s.count
  secure : u.secure = s.secure
  link : u.link = s.link
  latched : anyLatched u = anyLatched s

section
variable {s : State} {r : ShowRecord} {i : Fin 8} {l : Licence}

/-- The Show Controller's own step brings p to C. -/
theorem ShowingDue.taken (h : ShowingDue s r i l) : CommitsShowing (takeAdvance (s.setFree (s.free + 1))) r i := by
  have u := takeAdvance_does (s.setFree (s.free + 1))
  constructor
  · rw [isFull, u.ctl]; exact beq_iff_eq.mpr h.full
  · rw [commitDue, u.ctl]
    exact Bool.and_eq_true_iff.mpr ⟨beq_iff_eq.mpr h.position, by rw [setFree_ctl, h.uncommitted]; rfl⟩
  · rw [u.ctl]; exact h.record
  · rw [u.rest]; exact h.reserved

theorem CommitsShowing.kept {u : State} (h : CommitsShowing s r i) (k : Kept s u) (c : Uncommitted s u) :
    CommitsShowing u r i := by
  obtain ⟨flag, count, _⟩ := c
  constructor
  · rw [isFull, k.mark]; exact h.full
  · rw [commitDue, k.position, k.commitUnit, flag]; exact h.due
  · rw [k.record, h.record]
  · rw [count, h.reserved]

/-- An advance to C commits the showing, wherever the Count Unit's reaction comes among the others. -/
theorem ShowingDue.advance_commits (h : ShowingDue s r i l) {reactions : List Reaction} (hr : Reactions reactions) :
    ShowingCommitted s r i l (advance reactions s) := by
  obtain ⟨before, after, cut, first, last⟩ := split_once (hr.count (r := .count) (by decide) (Config.advanceOrder s.free))
  have whole : advance reactions s = after.foldl (react s.sound.ramp) (countAdvance s.sound.ramp
      (before.foldl (react s.sound.ramp) (takeAdvance (s.setFree (s.free + 1))))) := by
    unfold advance advanceIn; rw [cut, List.foldl_append, List.foldl_cons]; rfl
  have u := takeAdvance_does (s.setFree (s.free + 1))
  have k : Kept _ (before.foldl (react s.sound.ramp) (takeAdvance (s.setFree (s.free + 1)))) := foldl_kept _ _ _
  have c := foldl_uncommitted s.sound.ramp before (takeAdvance (s.setFree (s.free + 1))) first
  have count : (takeAdvance (s.setFree (s.free + 1))).count = s.count := by rw [u.rest]; rfl
  have secure : (takeAdvance (s.setFree (s.free + 1))).secure = s.secure := by rw [u.rest]; rfl
  have latched : anyLatched (takeAdvance (s.setFree (s.free + 1))) = anyLatched s := anyLatched_congr (by rw [u.rest]; rfl)
  have same := c.2.1.trans count
  rw [whole]
  refine (countAdvance_commitsShowing (h.taken.kept k c) ?_ _).among same (k.secure.trans secure)
    (fun e he => (c.2.2 e he).trans (u.countEvents e he)) (fun g => foldl_keepsLatch _ _ (latched.trans g))
    (foldl_uncommitted _ after _ last)
  rw [same]; exact h.licence

theorem ShowingDue.alike {u : State} (h : ShowingDue s r i l) (same : CommitAlike s u) : ShowingDue u r i l := by
  obtain ⟨full, uncommitted, record, reserved, licence, position⟩ := h
  constructor
  · rw [same.ctl, full]
  · rw [same.ctl, uncommitted]
  · rw [same.ctl, record]
  · rw [same.count, reserved]
  · rw [same.count]; exact licence
  · rw [same.ctl, position]

/-- An advance that a command makes from a state alike commits the showing of the state that the command found. -/
theorem ShowingDue.commits {u : State} (h : ShowingDue s r i l) (same : CommitAlike s u) {reactions : List Reaction}
    (hr : Reactions reactions) : ShowingCommitted s r i l (advance reactions u) :=
  ((h.alike same).advance_commits hr).among same.count same.secure (fun _ _ => by rw [same.link])
    (fun g => same.latched.trans g) (.refl _)

/-! ### The commands that make the advance -/

theorem ShowingDue.miss_commits {u : State} (h : ShowingDue s r i l) (same : CommitAlike s (u.setClock (missClock u))) :
    ShowingCommitted s r i l (miss u) := by
  obtain ⟨reactions, hr, e⟩ := miss_eq u
  rw [e]
  exact h.commits same hr

theorem lateEdge_uncommitted (s : State) : Uncommitted (miss s) (lateEdge s) := by
  unfold lateEdge; dsimp only; split
  · exact .of_same rfl rfl rfl
  · exact .refl _

theorem edgeAccepted_alike (s : State) : CommitAlike s (edgeAccepted (countEdge (quiet s))) := by
  have latched : anyLatched (edgeAccepted (countEdge (quiet s))) = anyLatched s := anyLatched_syncFound _
  constructor
  · rw [edgeAccepted_eq]; rfl
  · rw [edgeAccepted_eq]; rfl
  · rw [edgeAccepted_eq]; rfl
  · rw [edgeAccepted_eq]; rfl
  · exact latched

/-- An edge not before E - W commits the showing: by the miss of a late one, or by its own advance (R26). -/
theorem ShowingDue.judgeEdge_commits (h : ShowingDue s r i l)
    (early : timeBefore s.clock.timebase (s.clock.expected - BitVec.ofNat 48 s.clock.window) = false) :
    ShowingCommitted s r i l (judgeEdge (countEdge (quiet s))) := by
  cases late : timeBefore (s.clock.expected + BitVec.ofNat 48 s.clock.window) s.clock.timebase
  · rw [judgeEdge_inside (s := countEdge (quiet s)) early late]
    exact h.commits (edgeAccepted_alike s) (.inl rfl)
  · rw [judgeEdge_late (s := countEdge (quiet s)) early late]
    have missed : ShowingCommitted s r i l (miss (countEdge (quiet s))) := h.miss_commits ⟨rfl, rfl, rfl, rfl, rfl⟩
    exact missed.among rfl rfl (fun _ _ => rfl) id (lateEdge_uncommitted _)

end

/-- Settles O22: a showing that is due is committed by every advance to C, and by the three commands that make it. -/
theorem commitCountsTheShowing : Obligations.CommitCountsTheShowing := by
  unfold Obligations.CommitCountsTheShowing
  intro s r i l full uncommitted record reserved licence position
  have due : ShowingDue s r i l := ⟨full, uncommitted, record, reserved, licence, position⟩
  refine ⟨fun reactions hr => due.advance_commits hr, fun on => ⟨fun high fresh tracking source early => ?_, fun now => ?_,
    fun now => ?_⟩⟩
  · exact ⟨_, exec_fsyncInEdge_judged on high fresh tracking source, due.judgeEdge_commits early⟩
  · exact ⟨_, (exec_windowExpiry on).trans (congrArg _ (if_pos now)), due.miss_commits ⟨rfl, rfl, rfl, rfl, rfl⟩⟩
  · exact ⟨_, (exec_internalExpiry on).trans (congrArg _ (if_pos now)),
      due.commits (u := (quiet s).setClock (nextUnit (quiet s) s.clock)) ⟨rfl, rfl, rfl, rfl, rfl⟩ (.inl rfl)⟩

end Sys2Proof.Machine
end

section
/-! SUPPORT. Proofs/ShowRecords.lean: the derived values of a Show Record: the reels' start offsets, the total duration, the current
reel and the reel entered, the samples of a unit (R37, R38, R51, Table 2-1). -/

namespace Sys2Proof.Machine

/-! ### Start offsets -/

/-- The sum of the durations of the first `i` reels. -/
def startOf (reels : List Reel) (i : Nat) : Nat := ((reels.take i).map (·.duration)).sum

theorem reelStart_eq {r : ShowRecord} {i : Nat} (h : i < r.reels.length) : reelStart r i = startOf r.reels i := if_pos h

theorem startOf_zero (reels : List Reel) : startOf reels 0 = 0 := rfl

theorem startOf_cons (e : Reel) (reels : List Reel) (i : Nat) : startOf (e :: reels) (i + 1) = e.duration + startOf reels i := by
  simp [startOf]

theorem startOf_succ {reels : List Reel} {i : Nat} {e : Reel} (h : reels[i]? = some e) :
    startOf reels (i + 1) = startOf reels i + e.duration := by
  simp [startOf, List.take_add_one, h]

/-- Each reel of a duration above 0 begins after the one before it. -/
theorem startOf_strictMono {reels : List Reel} (positive : ∀ e ∈ reels, 1 ≤ e.duration) {i j : Nat} (lt : i < j)
    (inside : j ≤ reels.length) : startOf reels i < startOf reels j := by
  induction j with
  | zero => exact absurd lt (Nat.not_lt_zero i)
  | succ j ih =>
    have next := startOf_succ (List.getElem?_eq_getElem inside)
    have duration := positive _ (List.getElem_mem inside)
    rcases Nat.lt_succ_iff_lt_or_eq.mp lt with before | rfl
    · have := ih before (Nat.le_of_succ_le inside)
      omega
    · omega

/-! ### The current reel -/

/-- The reels reached at q: the last reel that starts at or before q. -/
theorem reelsReached_spec (reels : List Reel) (q : Nat) (h : reels ≠ []) :
    reelsReached reels q < reels.length ∧ startOf reels (reelsReached reels q) ≤ q ∧
      ∀ i, i < reels.length → startOf reels i ≤ q → i ≤ reelsReached reels q := by
  induction reels generalizing q with
  | nil => exact absurd rfl h
  | cons a tail ih =>
    cases tail with
    | nil => exact ⟨Nat.zero_lt_one, Nat.zero_le q, fun i hi _ => Nat.lt_succ_iff.mp hi⟩
    | cons b rest =>
      rw [reelsReached]
      split
      · next reached =>
        obtain ⟨inside, starts, last⟩ := ih (q - a.duration) (List.cons_ne_nil b rest)
        rw [Nat.add_comm 1]
        refine ⟨Nat.succ_lt_succ inside, by rw [startOf_cons]; omega, fun i hi le => ?_⟩
        cases i with
        | zero => exact Nat.zero_le _
        | succ i =>
          rw [startOf_cons] at le
          exact Nat.succ_le_succ (last i (Nat.lt_of_succ_lt_succ hi) (by omega))
      · next short =>
        refine ⟨Nat.zero_lt_succ _, Nat.zero_le q, fun i _ le => ?_⟩
        cases i with
        | zero => exact Nat.le_refl 0
        | succ i => rw [startOf_cons] at le; omega

/-- The current reel at q is the last that starts at or before q (R38). -/
theorem currentReel_spec {r : ShowRecord} (h : r.reels ≠ []) (q : Nat) :
    currentReel r q < r.reels.length ∧ reelStart r (currentReel r q) ≤ q ∧
      ∀ i, i < r.reels.length → reelStart r i ≤ q → i ≤ currentReel r q := by
  obtain ⟨inside, starts, last⟩ := reelsReached_spec r.reels q h
  exact ⟨inside, reelStart_eq inside ▸ starts, fun i hi le => last i hi (reelStart_eq hi ▸ le)⟩

theorem reelStart_zero (r : ShowRecord) : reelStart r 0 = 0 := by
  unfold reelStart; split <;> rfl

theorem reelStart_succ {r : ShowRecord} {i : Nat} {e : Reel} (h : r.reels[i]? = some e) (inside : i + 1 < r.reels.length) :
    reelStart r (i + 1) = reelStart r i + e.duration := by
  rw [reelStart_eq inside, reelStart_eq (Nat.lt_of_succ_lt inside), startOf_succ h]

theorem reelStart_strictMono {r : ShowRecord} (positive : ∀ e ∈ r.reels, 1 ≤ e.duration) {i j : Nat} (lt : i < j)
    (inside : j < r.reels.length) : reelStart r i < reelStart r j := by
  rw [reelStart_eq inside, reelStart_eq (lt.trans inside)]
  exact startOf_strictMono positive lt inside.le

/-- A reel that starts at q is the current reel at q. -/
theorem currentReel_reelStart {r : ShowRecord} (positive : ∀ e ∈ r.reels, 1 ≤ e.duration) {i : Nat}
    (inside : i < r.reels.length) : currentReel r (reelStart r i) = i := by
  obtain ⟨within, starts, last⟩ := currentReel_spec (List.ne_nil_of_length_pos (Nat.zero_lt_of_lt inside)) (reelStart r i)
  refine Nat.le_antisymm (Nat.le_of_not_lt fun later => ?_) (last i inside (Nat.le_refl _))
  exact absurd (reelStart_strictMono positive later within) (Nat.not_lt_of_le starts)

/-- An advance to q enters the reel other than reel 0 that starts at q (R51). -/
theorem reelEntered_iff {r : ShowRecord} (positive : ∀ e ∈ r.reels, 1 ≤ e.duration) (q : Nat) (e : Reel) :
    reelEntered r q = some e ↔ ∃ i, 0 < i ∧ r.reels[i]? = some e ∧ reelStart r i = q := by
  unfold reelEntered
  constructor
  · split
    · exact nofun
    · next moved =>
      split
      · next starts =>
        refine fun entry => ⟨currentReel r q, Nat.pos_of_ne_zero fun first => moved ?_, entry, starts⟩
        rw [← starts, first, reelStart_zero]
      · exact nofun
  · rintro ⟨i, above, entry, rfl⟩
    obtain ⟨inside, -⟩ := List.getElem?_eq_some_iff.mp entry
    have moved : 0 < reelStart r i := reelStart_zero r ▸ reelStart_strictMono positive above inside
    rw [if_neg moved.ne', currentReel_reelStart positive inside, if_pos rfl, entry]

/-! ### The total duration and the samples of a unit -/

/-- Sixteen reels of the greatest duration come to 16,777,200 units (R38). -/
theorem totalDuration_le {r : ShowRecord} (few : r.reels.length ≤ 16) (short : ∀ e ∈ r.reels, e.duration ≤ 1048575) :
    totalDuration r ≤ 16777200 := by
  have bound := List.sum_le_card_nsmul (r.reels.map (·.duration)) 1048575 (by simpa using short)
  rw [List.length_map, smul_eq_mul] at bound
  unfold totalDuration
  omega

/-- A record of a reel has a duration above 0, when its reels have. -/
theorem totalDuration_pos {r : ShowRecord} (some_reel : r.reels ≠ []) (positive : ∀ e ∈ r.reels, 1 ≤ e.duration) :
    1 ≤ totalDuration r := by
  have starts := startOf_strictMono positive (List.length_pos_iff.mpr some_reel) (Nat.le_refl _)
  rw [startOf, startOf, List.take_length] at starts
  exact Nat.succ_le_of_lt (Nat.zero_lt_of_lt starts)

/-- N divides the samples of D seconds at every rate, so that spu is a whole number (R38). -/
theorem samplesPerUnit_exact (r : ShowRecord) :
    samplesPerUnit r * rateN r.editRate = samplesPerSecond r.sampleRate * rateD r.editRate := by
  have divides (e : EditRate) (f : SampleRate) : rateN e ∣ samplesPerSecond f * rateD e := by
    cases e <;> cases f <;> decide
  exact Nat.div_mul_cancel (divides r.editRate r.sampleRate)

/-- Settles O23: the current reel is the last one started, and a reel is entered where its start offset is reached. -/
theorem derivedValuesOfARecord : Obligations.DerivedValuesOfARecord := by
  unfold Obligations.DerivedValuesOfARecord
  refine ⟨fun r => ⟨reelStart_zero r, fun i e => reelStart_succ, rfl, totalDuration_le, fun positive =>
      ⟨fun i j => reelStart_strictMono positive, fun some_reel q _ => currentReel_spec some_reel q, reelEntered_iff positive⟩⟩,
    samplesPerUnit_exact, fun e => by cases e <;> rfl, fun f => by cases f <;> rfl, fun s r record => ?_⟩
  refine ⟨showTotal_eq record, ?_, ?_⟩
  · unfold showSpu; rw [record]
  · unfold showReel; rw [record]

end Sys2Proof.Machine
end

section
/-! SUPPORT. Proofs/ShowRequests.lean: LOAD SHOW, PRIME, PRIME PREVIEW, STOP and UNLOAD: their checks row by row, the state that each
leaves, and the refusal of a show command in a wrong state (R37, R39, R40, R42 to R44, R46, R53, R54, R86, R98, R114, R134). -/

namespace Sys2Proof.Machine

/-! ### Codes of a SHOW record (Table 11-16) -/

theorem editRateOf_eq (b : Byte) :
    editRateOf b = [EditRate.r24, .r25, .r30, .r48, .r50, .r60, .r24000over1001][b.toNat]? := by
  unfold editRateOf
  rcases b.toNat with _ | _ | _ | _ | _ | _ | _ | n <;> rfl

theorem sampleRateOf_eq (b : Byte) : sampleRateOf b = [SampleRate.hz48000, .hz96000][b.toNat]? := by
  unfold sampleRateOf
  rcases b.toNat with _ | _ | n <;> rfl

theorem syncSourceOf_eq (b : Byte) : syncSourceOf b = [SyncSource.projector, .internal][b.toNat]? := by
  unfold syncSourceOf
  rcases b.toNat with _ | _ | n <;> rfl

/-- A byte names an entry of a table exactly when it is at most the table's last index. -/
theorem isSome_of_table {α : Type} {table : List α} {o : Option α} {n last : Nat} (named : o = table[n]?)
    (h : table.length = last + 1) : o.isSome = decide (n ≤ last) := by
  rw [named, Bool.eq_iff_iff, decide_eq_true_iff, isSome_getElem?, h]
  exact Nat.lt_succ_iff

/-! ### LOAD SHOW -/

theorem decide_lt_succ (n m : Nat) : decide (n < m + 1) = decide (n ≤ m) := by
  rw [decide_eq_decide]; exact Nat.lt_succ_iff

theorem reelRegionsOk_eq (e : ReelWrite) :
    reelRegionsOk e = (decide (e.pictureRegion.toNat ≤ 23) && decide (e.soundRegion.toNat ≤ 23)) := by
  rw [reelRegionsOk, decide_lt_succ, decide_lt_succ]

theorem reelKeysOk_eq (e : ReelWrite) :
    reelKeysOk e = (decide (e.pictureKey.toNat ≤ 15) && decide (e.soundKey.toNat ≤ 15)) := by
  rw [reelKeysOk, decide_lt_succ, decide_lt_succ]

/-- The rows of R39. -/
def showRows (w : ShowWrite) (s : State) : List Row :=
  [⟨s.ctl.state = .empty || s.ctl.state = .loaded, .refusedState, 1⟩, ⟨w.licenceSlot.toNat ≤ 7, .refusedValue, 2⟩,
   ⟨w.editRate.toNat ≤ 6, .refusedValue, 3⟩, ⟨w.sampleRate.toNat ≤ 1, .refusedValue, 4⟩,
   ⟨1 ≤ w.channels.toNat && w.channels.toNat ≤ 16, .refusedValue, 5⟩, ⟨w.sync.toNat ≤ 1, .refusedValue, 6⟩,
   ⟨w.lead.toNat ≤ 255, .refusedValue, 7⟩, ⟨w.trail.toNat ≤ 15 || w.trail.toNat = 255, .refusedValue, 8⟩,
   ⟨1 ≤ w.reels.length && w.reels.length ≤ 16, .refusedValue, 9⟩,
   ⟨w.reels.all fun e => 1 ≤ e.duration.toNat && e.duration.toNat ≤ 1048575, .refusedValue, 10⟩,
   ⟨w.reels.all fun e => e.pictureRegion.toNat ≤ 23 && e.soundRegion.toNat ≤ 23, .refusedValue, 11⟩,
   ⟨w.reels.all fun e => e.pictureKey.toNat ≤ 15 && e.soundKey.toNat ≤ 15, .refusedValue, 12⟩]

theorem tableOpen_agrees (s : State) : Agree { pass := tableOpen s, result := .refusedState, detail := 1 }
    ⟨s.ctl.state = .empty || s.ctl.state = .loaded, .refusedState, 1⟩ := ⟨not_isPrimed s, rfl, rfl⟩

theorem showChecks_agree (w : ShowWrite) (s : State) : List.Forall₂ Agree (showChecks w s) (showRows w s) := by
  have slot : decide (w.licenceSlot.toNat < 8) = decide (w.licenceSlot.toNat ≤ 7) := decide_lt_succ _ _
  have edit := isSome_of_table (last := 6) (editRateOf_eq w.editRate) rfl
  have sample := isSome_of_table (last := 1) (sampleRateOf_eq w.sampleRate) rfl
  have sync := isSome_of_table (last := 1) (syncSourceOf_eq w.sync) rfl
  have regions := congrArg w.reels.all (funext reelRegionsOk_eq)
  have keys := congrArg w.reels.all (funext reelKeysOk_eq)
  exact .cons (tableOpen_agrees s) (.cons ⟨slot, rfl, rfl⟩ (.cons ⟨edit, rfl, rfl⟩ (.cons ⟨sample, rfl, rfl⟩
    (.cons ⟨rfl, rfl, rfl⟩ (.cons ⟨sync, rfl, rfl⟩ (.cons ⟨rfl, rfl, rfl⟩ (.cons ⟨rfl, rfl, rfl⟩ (.cons ⟨rfl, rfl, rfl⟩
      (.cons ⟨rfl, rfl, rfl⟩ (.cons ⟨regions, rfl, rfl⟩ (.cons ⟨keys, rfl, rfl⟩ .nil)))))))))))

theorem showLoaded_eq (w : ShowWrite) (s : State) : showLoaded w (quiet s) = { s with
    ctl := { state := .loaded, mark := .none, record := some (recordOfWrite w), position := 0, committed := false, commitUnit := 0,
             keyLapsed := s.ctl.keyLapsed }
    cues := { s.cues with laneA := { lowMark := s.cues.laneA.lowMark }, laneB := { lowMark := s.cues.laneB.lowMark } }
    link := if s.ctl.state = .empty then answeredWith s.link 2#7 else answered s.link .ok 0
    out := {} } := by
  unfold showLoaded; dsimp only
  by_cases empty : s.ctl.state = .empty
  · rw [if_pos (show (quiet s).ctl.state = .empty from empty), if_pos empty]; rfl
  · rw [if_neg (show ¬ (quiet s).ctl.state = .empty from empty), if_neg empty]; rfl

/-- Settles O24: LOAD SHOW is judged by the rows of R39, and leaves the record and the lanes as R40 and R114 have them. -/
theorem loadShowFollowsItsChecks : Obligations.LoadShowFollowsItsChecks := by
  unfold Obligations.LoadShowFollowsItsChecks
  refine ⟨fun w s linked => ?_, fun b => ⟨editRateOf_eq b, sampleRateOf_eq b, syncSourceOf_eq b⟩⟩
  exact request_judged linked (checked_eq_judged (showChecks_agree w s) (showLoaded_eq w s))

/-! ### PRIME -/

theorem isActive_eq (x : LicenceSlot) : isActive x = decide (x = .active (slotLicence x)) := by
  cases x <;> simp [isActive, slotLicence, licenceOf]

theorem storeNotFailed_eq (s : State) : storeNotFailed s = decide (s.count.status ≠ .failed) := by
  unfold storeNotFailed
  cases s.count.status <;> simp

theorem slotKind_eq (x : KeySlot) (k : EssenceKind) :
    (slotKind x == some k) = decide ((keyFieldsOf x).map (·.kind) = some k) := by
  rw [Bool.eq_iff_iff, beq_iff_eq, decide_eq_true_iff]; rfl

theorem keyWindowHolds_eq (x : KeySlot) (now : Nat) :
    keyWindowHolds x now = (keyFieldsOf x).any fun f => f.notBefore ≤ now && now < f.notAfter := by
  unfold keyWindowHolds
  cases keyFieldsOf x <;> rfl

/-- Rows 1 to 9 of R43. -/
def primeRows (r : ShowRecord) (s : State) : List Row :=
  let slot := s.count.ram.licences[r.licenceSlot]
  let l := slotLicence slot
  let now := s.secure.time
  [⟨s.ctl.state = .loaded, .refusedState, 1⟩, ⟨s.secure.valid, .refusedState, 2⟩, ⟨slot = .active l, .refusedState, 3⟩,
   ⟨l.compositionId = r.compositionId, .refusedValue, 4⟩, ⟨l.notBefore ≤ now && now < l.notAfter, .refusedValue, 5⟩,
   ⟨1 ≤ l.remaining, .refusedState, 6⟩,
   ⟨l.screenId = s.count.ram.screenId && s.count.ram.screenId ≠ 65535#16, .refusedValue, 7⟩,
   ⟨s.count.ram.log.length < 64, .refusedState, 8⟩, ⟨s.count.status ≠ .failed, .refusedState, 9⟩]

/-- The rows of a named key slot of an essence kind, from detail `d` on (R43). -/
def keyRows (s : State) (i : Fin 16) (kind : EssenceKind) (d : Nat) : List Row :=
  [⟨(keyFieldsOf s.keys[i]).map (·.kind) = some kind, .refusedValue, d⟩,
   ⟨isLoadedKey s.keys[i], .refusedState, d + 1⟩,
   ⟨(keyFieldsOf s.keys[i]).any fun f => f.notBefore ≤ s.secure.time && s.secure.time < f.notAfter, .refusedValue, d + 2⟩]

/-- Rows 10 to 19 of R43, of a reel and its number. -/
def reelRows (r : ShowRecord) (s : State) (x : Reel × Nat) : List Row :=
  let p := s.path.regions[x.1.pictureRegion]
  let q := s.path.regions[x.1.soundRegion]
  [⟨p.valid && p.kind = .pictureEssence && p.reel = x.2, .refusedValue, 10⟩,
   ⟨x.1.duration * p.stride ≤ p.size, .refusedValue, 11⟩,
   ⟨q.valid && q.kind = .soundEssence && q.reel = x.2, .refusedValue, 12⟩,
   ⟨x.1.duration * samplesPerUnit r ≤ q.size, .refusedValue, 13⟩] ++
  keyRows s x.1.pictureKey .picture 14 ++ keyRows s x.1.soundKey .sound 17

theorem primeChecks_agree (r : ShowRecord) (s : State) : List.Forall₂ Agree (primeChecks r s) (primeRows r s) := by
  have screen : (s.count.ram.screenId != 65535#16) = decide (s.count.ram.screenId ≠ 65535#16) := by
    rw [Bool.eq_iff_iff, bne_iff_ne, decide_eq_true_iff]
  unfold primeChecks primeRows
  dsimp only
  rw [screen]
  exact .cons (stateCheck_agrees .loaded s) (.cons ⟨rfl, rfl, rfl⟩ (.cons ⟨isActive_eq _, rfl, rfl⟩
    (.cons ⟨rfl, rfl, rfl⟩ (.cons ⟨rfl, rfl, rfl⟩ (.cons ⟨rfl, rfl, rfl⟩ (.cons ⟨rfl, rfl, rfl⟩ (.cons ⟨rfl, rfl, rfl⟩
      (.cons ⟨storeNotFailed_eq s, rfl, rfl⟩ .nil))))))))

theorem reelChecks_agree (r : ShowRecord) (s : State) (i : Nat) (e : Reel) :
    List.Forall₂ Agree (reelChecks r s i e) (reelRows r s (e, i)) :=
  .cons ⟨rfl, rfl, rfl⟩ (.cons ⟨rfl, rfl, rfl⟩ (.cons ⟨rfl, rfl, rfl⟩ (.cons ⟨rfl, rfl, rfl⟩ (.cons ⟨slotKind_eq _ _, rfl, rfl⟩
    (.cons ⟨rfl, rfl, rfl⟩ (.cons ⟨keyWindowHolds_eq _ _, rfl, rfl⟩ (.cons ⟨slotKind_eq _ _, rfl, rfl⟩ (.cons ⟨rfl, rfl, rfl⟩
      (.cons ⟨keyWindowHolds_eq _ _, rfl, rfl⟩ .nil)))))))))

/-- The rows of every reel, in the order of the reels. -/
theorem allReelChecks_agree (r : ShowRecord) (s : State) (reels : List Reel) (i : Nat) :
    List.Forall₂ Agree (allReelChecks r s i reels) ((reels.zipIdx i).flatMap (reelRows r s)) := by
  induction reels generalizing i with
  | nil => exact .nil
  | cons e es ih =>
    rw [allReelChecks, List.zipIdx_cons, List.flatMap_cons]
    exact List.rel_append (reelChecks_agree r s i e) (ih (i + 1))

theorem mapNamedKeys_eq (f : KeySlot → KeySlot) (r : ShowRecord) (keys : Vector KeySlot 16) :
    mapNamedKeys f r keys = Vector.ofFn fun i : Fin 16 => if i ∈ namedKeys r then f keys[i] else keys[i] :=
  vofFn_eq_ofFn _

theorem showPrimed_eq (r : ShowRecord) (s : State) : showPrimed r (quiet s) = { s with
    ctl := { s.ctl with
      state := .primed, mark := .full, position := 0, committed := false
      commitUnit := Nat.max 1
        (totalDuration r * (slotLicence s.count.ram.licences[r.licenceSlot]).permille / 1000) }
    keys := Vector.ofFn fun i => if i ∈ namedKeys r then takeSlot s.keys[i] else s.keys[i]
    unpack := { s.unpack with context0 := none, context1 := none, frontier := none, late := 0, starved := false }
    sound := { s.sound with
      frontier := none, late := 0, starved := false
      ramp := { startSample := 0, startGain := 32768, target := .unity, length := s.sound.rampLength } }
    count := { s.count with reserved := some r.licenceSlot, blanked := 0 }
    sup := withdrawn [.pictureStarved, .soundStarved] s.sup
    link := answeredWith s.link 2#7
    out := {} } := by
  rw [showPrimed, primeBlocks_eq, mapNamedKeys_eq]; rfl

theorem exec_prime {s : State} {r : ShowRecord} (linked : Linked s) (record : s.ctl.record = some r) : exec .prime s =
    .next (acknowledging 6 (checked (primeChecks r (quiet s) ++ allReelChecks r (quiet s) 0 r.reels) (showPrimed r) (quiet s))) := by
  show Host.Outcome.next (onLink 6 s _) = _
  rw [onLink_linked linked, quiet_ctl, record]

theorem mem_namedKeys (r : ShowRecord) (i : Fin 16) :
    i ∈ namedKeys r ↔ ∃ e ∈ r.reels, e.pictureKey = i ∨ e.soundKey = i := by
  simp [namedKeys, eq_comm]

theorem isLoadedKey_iff (x : KeySlot) : isLoadedKey x = true ↔ ∃ f m, x = .loaded f m := by
  cases x <;> simp [isLoadedKey]

/-- Settles O25: PRIME is judged by the nine rows and ten for each reel, and takes the slots that the record names. -/
theorem primeFollowsItsChecks : Obligations.PrimeFollowsItsChecks := by
  unfold Obligations.PrimeFollowsItsChecks
  refine ⟨fun s r linked record => ?_, mem_namedKeys, fun x => ⟨?_, isLoadedKey_iff x, ?_⟩,
    fun x => ⟨?_, fun l => slotLicence_eq⟩⟩
  · rw [exec_prime linked record, checked_eq_judged
      (List.rel_append (primeChecks_agree r (quiet s)) (allReelChecks_agree r (quiet s) r.reels 0)) (showPrimed_eq r s)]
    rfl
  all_goals cases x <;> rfl

/-! ### PRIME PREVIEW, UNLOAD, STOP -/

theorem previewPrimed_eq (s : State) : previewPrimed (quiet s) = { s with
    ctl := { s.ctl with state := .primed, mark := .preview, position := 0, committed := false, commitUnit := 0 }
    unpack := { s.unpack with context0 := none, context1 := none, frontier := none, late := 0, starved := false }
    sound := { s.sound with
      frontier := none, late := 0, starved := false
      ramp := { startSample := 0, startGain := 32768, target := .unity, length := s.sound.rampLength } }
    count := { s.count with blanked := 0 }
    sup := withdrawn [.pictureStarved, .soundStarved] s.sup
    link := answeredWith s.link 2#7
    out := {} } := by
  rw [previewPrimed, primeBlocks_eq]; rfl

/-- Settles O26: PRIME PREVIEW and UNLOAD are judged by one row each, and take no slot. -/
theorem previewAndUnloadTakeNothing : Obligations.PreviewAndUnloadTakeNothing := by
  unfold Obligations.PreviewAndUnloadTakeNothing
  intro s linked
  have row := stateCheck_agrees .loaded (quiet s)
  exact ⟨request_judged linked (checked_eq_judged (.cons row .nil) (previewPrimed_eq s)),
    request_judged linked (checked_eq_judged (.cons row .nil) rfl)⟩

/-- The key slots after STOP (R53): those of a full show released. -/
def releasedKeys (r : ShowRecord) (mark : Mark) (keys : Vector KeySlot 16) : Vector KeySlot 16 :=
  if mark = .full then Vector.ofFn fun i : Fin 16 => if i ∈ namedKeys r then releaseSlot keys[i] else keys[i] else keys

theorem releaseKeys_eq {s : State} {r : ShowRecord} (record : s.ctl.record = some r) :
    releaseKeys s = s.setKeys (releasedKeys r s.ctl.mark s.keys) := by
  unfold releaseKeys releasedKeys isFull
  rw [record]
  dsimp only
  rw [mapNamedKeys_eq]
  by_cases full : s.ctl.mark = .full
  · rw [if_pos full, if_pos (by simp [full])]
  · rw [if_neg full, if_neg (by simp [full])]; rfl

/-- What STOP does to the Show Controller, the Show Clock, the lanes, the Unpack Engine and the Sound Stage (R53, R86, R90, R98,
R114). -/
theorem stopBlocks_eq (s : State) : clearSoundShow (clearUnpackShow (activateMask (flushLanes (clockIdle (stopCtl s))))) = { s with
    ctl := { s.ctl with state := .loaded, mark := .none, position := 0 }
    clock := { s.clock with substate := .idle, anchorDeadline := none }
    unpack := { s.unpack with context0 := none, context1 := none, frontier := none, late := 0 }
    sound := { s.sound with activeMask := s.sound.pendingMask, frontier := none, late := 0 }
    cues := { s.cues with laneA := { lowMark := s.cues.laneA.lowMark }, laneB := { lowMark := s.cues.laneB.lowMark } }
    link := { s.link with eventPending := s.link.eventPending ||| 2#7 } } := by
  simp only [clearSoundShow, clearUnpackShow, activateMask, flushLanes, laneFlush, clockIdle, stopCtl, setShowState, setEvent,
    eventBit, State.setSound, State.setUnpack, State.setCues, State.setClock, State.setCtl, State.setLink]

theorem showStopped_eq {s : State} {r : ShowRecord} (record : s.ctl.record = some r) : showStopped (quiet s) = { s with
    ctl := { s.ctl with state := .loaded, mark := .none, position := 0, keyLapsed := false }
    clock := { s.clock with substate := .idle, anchorDeadline := none, syncLoss := false }
    keys := releasedKeys r s.ctl.mark s.keys
    unpack := { s.unpack with context0 := none, context1 := none, frontier := none, late := 0, starved := false }
    sound := { s.sound with activeMask := s.sound.pendingMask, frontier := none, late := 0, starved := false }
    cues := { s.cues with laneA := { lowMark := s.cues.laneA.lowMark }, laneB := { lowMark := s.cues.laneB.lowMark } }
    count := { s.count with reserved := none }
    sup := withdrawn [.syncLoss, .pictureStarved, .soundStarved, .keyLapsed] s.sup
    link := answeredWith s.link 2#7
    out := {} } := by
  have release : releaseKeys (quiet s) = (quiet s).setKeys (releasedKeys r s.ctl.mark s.keys) := releaseKeys_eq record
  unfold showStopped; dsimp only
  rw [release, stopBlocks_eq, withdrawShow_eq]
  rfl

theorem isPrimed_agrees (s : State) : Agree { pass := isPrimed s, result := .refusedState, detail := 1 }
    ⟨s.ctl.state ≠ .empty && s.ctl.state ≠ .loaded, .refusedState, 1⟩ := by
  refine ⟨?_, rfl, rfl⟩
  show isPrimed s = (decide (s.ctl.state ≠ .empty) && decide (s.ctl.state ≠ .loaded))
  unfold isPrimed; cases s.ctl.state <;> rfl

/-- Settles O30: STOP is judged by its one row, and releases what the show held. -/
theorem stopReleasesTheShow : Obligations.StopReleasesTheShow := by
  unfold Obligations.StopReleasesTheShow
  refine ⟨fun s r linked record => ?_, fun x => by cases x <;> rfl⟩
  exact request_judged linked (checked_eq_judged (.cons (isPrimed_agrees (quiet s)) .nil) (showStopped_eq record))

/-! ### Refusals by the show state -/

theorem stateCheck_fails {st : ShowState} {s : State} (h : s.ctl.state ≠ st) : (stateCheck st s).pass = false :=
  beq_eq_false_iff_ne.mpr h

theorem isPrimed_eq_false {s : State} (h : s.ctl.state = .empty ∨ s.ctl.state = .loaded) : isPrimed s = false := by
  unfold isPrimed
  rcases h with h | h <;> rw [h]

theorem isPrimed_eq_true {s : State} (empty : s.ctl.state ≠ .empty) (loaded : s.ctl.state ≠ .loaded) : isPrimed s = true :=
  (isPrimed_agrees s).1.trans (by simp [empty, loaded])

/-- A request whose first check fails is refused with its code and detail. -/
theorem checked_first_fails {c : Check} {cs : List Check} {accept : State → State} {s : State} (h : c.pass = false) :
    checked (c :: cs) accept (quiet s) = refusedAs s c.result c.detail := by
  rw [checked_cons, if_neg (by simp [h]), answer_quiet]

/-- A request that the link receives and that is refused changes the answer alone, its bytes acknowledged (R42, R157). -/
theorem request_refused {s : State} {n : Nat} {f : State → State} (linked : Linked s)
    (h : f (quiet s) = refusedAs s .refusedState 1) :
    (.next (onLink n s f) : Host.Outcome State Fault Refusal) = .next (acknowledging n (refusedAs s .refusedState 1)) := by
  rw [onLink_linked linked, h]

theorem exec_prime_refused {s : State} (linked : Linked s) (h : s.ctl.state ≠ .loaded) :
    exec .prime s = .next (acknowledging 6 (refusedAs s .refusedState 1)) := by
  cases record : s.ctl.record with
  | none =>
    show Host.Outcome.next (onLink 6 s _) = _
    rw [onLink_linked linked, quiet_ctl, record]; rfl
  | some r =>
    rw [exec_prime linked record]
    exact congrArg (Host.Outcome.next <| acknowledging 6 ·) (checked_first_fails (stateCheck_fails (s := quiet s) h))

/-- The LINK record after such a refusal: REFUSED_STATE, detail 1, and no delta. -/
theorem linkRecord_refused (s : State) : linkRecord (refusedAs s .refusedState 1) = [5#8, 1#8, 0#8, 0#8] := by
  have delta : signedBytes 0 = [0#8, 0#8] := by decide
  show [5#8, 1#8] ++ signedBytes 0 = _
  rw [delta]; rfl

/-- Settles O31: in a state that does not accept the command the first check fails. -/
theorem wrongStateIsRefused : Obligations.WrongStateIsRefused := by
  unfold Obligations.WrongStateIsRefused
  intro s linked
  have outside {st : ShowState} (h : s.ctl.state ≠ st) : (stateCheck st (quiet s)).pass = false := stateCheck_fails h
  refine ⟨fun h => ⟨?_, ?_, ?_⟩, fun h => ?_, fun h => ?_, fun h => ?_, fun h => ?_, fun empty loaded => ⟨fun w => ?_, fun i w => ?_⟩,
    linkRecord_refused s⟩
  · exact exec_prime_refused linked h
  iterate 5 exact request_refused linked (checked_first_fails (outside h))
  · exact request_refused linked (checked_first_fails (isPrimed_eq_false (s := quiet s) h))
  all_goals
    have closed : tableOpen (quiet s) = false := by
      rw [tableOpen, isPrimed_eq_true (s := quiet s) empty loaded]; rfl
    exact request_refused linked (checked_first_fails closed)

end Sys2Proof.Machine
end

section
/-! SUPPORT. Proofs/ShowLaws.lean: the three laws of the show, what they read of the state, and which operations leave them: raises and
withdrawals, the advance, the data path, the clocks and the Supervisor (R41, R44, R145). -/

namespace Sys2Proof.Machine

/-! ### What the laws read -/

/-- Each kind's condition as its detector has it, and the Supervisor's copy of it. -/
def conditionsOf (s : State) (k : FaultKind) : Bool × Bool := (detectorOf s k, (faultOf s k).condition)

/-- What the laws of the show read of the state, but for the Show Clock's sub-state. -/
structure ShowView where
  record : Option ShowRecord
  state : ShowState
  mark : Mark
  position : Nat
  keys : Vector KeySlot 16
  conditions : FaultKind → Bool × Bool

/-- What the laws of the show read of a state. -/
def showView (s : State) : ShowView where
  record := s.ctl.record
  state := s.ctl.state
  mark := s.ctl.mark
  position := s.ctl.position
  keys := s.keys
  conditions := conditionsOf s

/-- The laws of the show go over from one state to another, each by itself. -/
structure ShowLawsKept (s t : State) : Prop where
  playback : ShowOk s → ShowOk t
  keys : KeysOk s → KeysOk t
  copies : CopiesOk s → CopiesOk t

theorem ShowLawsKept.refl (s : State) : ShowLawsKept s s := ⟨id, id, id⟩

theorem ShowLawsKept.trans {s t u : State} (h : ShowLawsKept s t) (g : ShowLawsKept t u) : ShowLawsKept s u :=
  ⟨g.playback ∘ h.playback, g.keys ∘ h.keys, g.copies ∘ h.copies⟩

theorem KeysOk.of_same {s t : State} (mark : t.ctl.mark = s.ctl.mark) (record : t.ctl.record = s.ctl.record)
    (keys : t.keys = s.keys) (h : KeysOk s) : KeysOk t := by
  unfold KeysOk; rw [mark, record, keys]; exact h

theorem CopiesOk.of_conditions {s t : State} (e : conditionsOf t = conditionsOf s) (h : CopiesOk s) : CopiesOk t := by
  intro k
  obtain ⟨detector, copy⟩ := Prod.mk.inj (congrFun e k)
  exact copy.trans ((h k).trans detector.symm)

/-- The copies hang on the five detectors and on the Supervisor. -/
theorem CopiesOk.of_detectors {s t : State} (sup : t.sup = s.sup) (sync : t.clock.syncLoss = s.clock.syncLoss)
    (picture : t.unpack.starved = s.unpack.starved) (sound : t.sound.starved = s.sound.starved)
    (key : t.ctl.keyLapsed = s.ctl.keyLapsed) (h : CopiesOk s) : CopiesOk t := by
  intro k
  rw [faultOf_congr (congrArg (·.faults) sup) k, h k]
  cases k
  case syncLoss => exact sync.symm
  case pictureStarved => exact picture.symm
  case soundStarved => exact sound.symm
  case keyLapsed => exact key.symm
  case watchdog => exact congrArg (·.watchdog.condition) sup.symm
  all_goals rfl

/-- The laws hang on the view, and on the Show Clock's being IDLE. -/
theorem ShowLawsKept.of_view {s t : State} (e : showView t = showView s)
    (clock : t.clock.substate ≠ .idle → s.clock.substate ≠ .idle) : ShowLawsKept s t := by
  simp only [showView, ShowView.mk.injEq] at e
  obtain ⟨record, state, mark, position, keys, conditions⟩ := e
  refine ⟨fun ⟨absent, marked, start, bounds, paced⟩ => ?_, .of_same mark record keys, .of_conditions conditions⟩
  unfold ShowOk
  rw [record, state, mark, position]
  exact ⟨absent, marked, start, bounds, paced ∘ clock⟩

/-- An operation that leaves the view and the Show Clock's sub-state. -/
theorem ShowLawsKept.of_same {s t : State} (e : showView t = showView s) (clock : t.clock.substate = s.clock.substate) :
    ShowLawsKept s t := .of_view e fun h => clock ▸ h

/-- An operation made after a change that leaves the view and the Show Clock's sub-state. -/
theorem ShowLawsKept.after {s t u : State} (g : ShowLawsKept t u) (e : showView t = showView s)
    (clock : t.clock.substate = s.clock.substate) : ShowLawsKept s u := (ShowLawsKept.of_same e clock).trans g

/-- A show that is PRIMED, RUNNING or HELD and becomes RUNNING or HELD at the same position keeps its law. -/
theorem ShowOk.moves {s t : State} (h : ShowOk s) (was : s.ctl.state = .primed ∨ s.ctl.state = .running ∨ s.ctl.state = .held)
    (now : t.ctl.state = .running ∨ t.ctl.state = .held) (record : t.ctl.record = s.ctl.record) (mark : t.ctl.mark = s.ctl.mark)
    (position : t.ctl.position = s.ctl.position) (clock : t.clock.substate ≠ .idle → t.ctl.state = .running) : ShowOk t := by
  obtain ⟨absent, marked, -, bounds, -⟩ := h
  have before (st : ShowState) (no : st ≠ .primed ∧ st ≠ .running ∧ st ≠ .held) : s.ctl.state ≠ st := by
    rintro rfl; rcases was with e | e | e <;> simp [e] at no
  have after (st : ShowState) (no : st ≠ .running ∧ st ≠ .held) : t.ctl.state ≠ st := by
    rintro rfl; rcases now with e | e <;> simp [e] at no
  refine ⟨?_, ?_, fun rest => ?_, fun r hr => ?_, clock⟩
  · rw [record, absent]
    exact iff_of_false (before .empty (by decide)) (after .empty (by decide))
  · rw [mark, marked]
    exact iff_of_false (not_or.mpr ⟨before .empty (by decide), before .loaded (by decide)⟩)
      (not_or.mpr ⟨after .empty (by decide), after .loaded (by decide)⟩)
  · exact absurd rest (not_or.mpr ⟨after .empty (by decide), not_or.mpr ⟨after .loaded (by decide), after .primed (by decide)⟩⟩)
  · obtain ⟨total, within, final⟩ := bounds r (record ▸ hr)
    rw [position, final]
    exact ⟨total, within, iff_of_false (before .ended (by decide)) (after .ended (by decide))⟩

/-! ### Raises and withdrawals -/

/-- A raise leaves the show, or holds a RUNNING one with the Show Clock IDLE (R151). -/
theorem raiseFault_showOk (b : GainRamp) (k : FaultKind) {s : State} (h : ShowOk s) : ShowOk (raiseFault b k s) := by
  rcases raiseFault_ctl b k s with ⟨ctl, clock⟩ | ⟨running, ctl, clock⟩
  · unfold ShowOk; rw [ctl, clock]; exact h
  · refine h.moves (.inr (.inl running)) ?_ ?_ ?_ ?_ ?_
    all_goals rw [ctl]
    · exact .inr rfl
    · rw [clock]; exact fun c => absurd rfl c

theorem raiseFault_keysOk (b : GainRamp) (k : FaultKind) {s : State} (h : KeysOk s) : KeysOk (raiseFault b k s) :=
  h.of_same (raiseFault_kept b k s).mark (raiseFault_kept b k s).record (raiseFault_kept b k s).keys

/-- A raise of a kind that is no condition touches no copy of a condition. -/
theorem raiseFault_showLaws {k : FaultKind} (h : isConditionKind k = false) (b : GainRamp) (s : State) :
    ShowLawsKept s (raiseFault b k s) := by
  refine ⟨raiseFault_showOk b k, raiseFault_keysOk b k, fun copies m => ?_⟩
  rw [raiseFault_condition, detectorOf_raiseFault, h, Bool.and_false, Bool.or_false]
  exact copies m

/-- A detector set or cleared moves neither the show nor a key slot. -/
theorem setDetector_playback (k : FaultKind) (v : Bool) (s : State) :
    (ShowOk s → ShowOk (setDetector k v s)) ∧ (KeysOk s → KeysOk (setDetector k v s)) := by
  cases k <;> exact ⟨id, id⟩

/-- An entry whose copy was the detector's condition has the detector's condition after the raise or the withdrawal. -/
theorem conditionEntry_condition {k : FaultKind} (h : isConditionKind k = true) (p : Policy) {was now : Bool} {e : FaultEntry}
    (copy : e.condition = was) : (conditionEntry p k was now e).condition = now := by
  subst copy
  unfold conditionEntry raisedEntry
  cases hc : e.condition <;> cases now <;> simp [h, hc]

/-- A condition that becomes active is copied to the Supervisor by its raise (R145). -/
theorem raiseCondition_showLaws {k : FaultKind} (h : isConditionKind k = true) (b : GainRamp) (s : State) :
    ShowLawsKept s (raiseCondition b k s) := by
  refine ⟨?_, ?_, fun copies m => ?_⟩
  · unfold raiseCondition; split
    · exact id
    · exact raiseFault_showOk b k ∘ (setDetector_playback k true s).1
  · unfold raiseCondition; split
    · exact id
    · exact raiseFault_keysOk b k ∘ (setDetector_playback k true s).2
  · by_cases same : k = m
    · subst same
      obtain ⟨active, entry⟩ := raiseCondition_own h b s
      rw [active, entry]
      exact conditionEntry_condition h _ (copies k)
    · obtain ⟨detector, entry⟩ := raiseCondition_stays same b s
      rw [detector, entry]; exact copies m

/-- A condition withdrawn is withdrawn at the Supervisor (R145). -/
theorem withdraw_showLaws {k : FaultKind} (h : isConditionKind k = true) (s : State) : ShowLawsKept s (withdraw k s) := by
  refine ⟨(setDetector_playback k false s).1, (setDetector_playback k false s).2, fun copies m => ?_⟩
  by_cases same : k = m
  · subst same
    rw [faultOf_withdraw, if_pos rfl, withdraw, detectorOf_modFault, detectorOf_setDetector h]
  · obtain ⟨detector, entry⟩ := withdraw_stays same s
    rw [detector, entry]; exact copies m

/-- A hold of a RUNNING show (R48). -/
theorem holdShow_showLaws (b : GainRamp) {s : State} (running : s.ctl.state = .running) : ShowLawsKept s (holdShow b s) where
  playback h := h.moves (.inr (.inl running)) (.inr rfl) rfl rfl rfl fun c => absurd rfl c
  keys := .of_same rfl rfl rfl
  copies := .of_conditions rfl

theorem outputReturned_showLaws (b : GainRamp) (s : State) : ShowLawsKept s (outputReturned b s) := by
  unfold outputReturned; split <;> exact .of_same rfl rfl

/-! ### The advance -/

/-- An advance of a RUNNING show with the Show Clock TRACKING: p goes on to T at most, and comes to T as the show ends (R32, R41). -/
theorem Advanced.showOk {s t : State} (h : Advanced s t) (tracking : s.clock.substate = .tracking) (ok : ShowOk s) : ShowOk t := by
  obtain ⟨absent, marked, -, bounds, paced⟩ := ok
  have running : s.ctl.state = .running := paced (by rw [tracking]; decide)
  have unmoved : s.ctl.record ≠ none ∧ s.ctl.mark ≠ .none := by
    rw [ne_eq, ne_eq, absent, marked, running]; decide
  have now : t.ctl.state = .ended ∧ s.ctl.position + 1 = showTotal s ∨
      (t.ctl.state = .running ∨ t.ctl.state = .held) ∧ s.ctl.position + 1 ≠ showTotal s := by
    by_cases final : s.ctl.position + 1 = showTotal s
    · exact .inl ⟨(h.ended final).1, final⟩
    · exact .inr ⟨h.going running final, final⟩
  have primed : t.ctl.state ≠ .empty ∧ t.ctl.state ≠ .loaded ∧ t.ctl.state ≠ .primed := by
    rcases now with ⟨e, -⟩ | ⟨e | e, -⟩ <;> rw [e] <;> decide
  refine ⟨?_, ?_, fun rest => ?_, fun r hr => ?_, fun moving => ?_⟩
  · rw [h.record]; exact iff_of_false unmoved.1 primed.1
  · rw [h.mark]; exact iff_of_false unmoved.2 (not_or.mpr ⟨primed.1, primed.2.1⟩)
  · exact absurd rest (not_or.mpr ⟨primed.1, not_or.mpr primed.2⟩)
  · have record : s.ctl.record = some r := h.record ▸ hr
    obtain ⟨total, within, final⟩ := bounds r record
    have short : s.ctl.position ≠ totalDuration r := fun c => by rw [final, running] at c; cases c
    rw [showTotal_eq record] at now
    rw [h.position]
    refine ⟨total, Nat.succ_le_of_lt (Nat.lt_of_le_of_ne within short), ?_⟩
    rcases now with ⟨e, last⟩ | ⟨e | e, last⟩ <;> simp [e, last]
  · by_contra still
    rw [h.substate tracking running, if_neg still] at moving
    exact moving rfl

theorem Advanced.keysOk {s t : State} (h : Advanced s t) (ok : KeysOk s) : KeysOk t := ok.of_same h.mark h.record h.keys

/-- The copies after an advance, SYNC_LOSS left to the Show Clock. -/
theorem Advanced.copiesOk {s t : State} (h : Advanced s t) (sync : (faultOf t .syncLoss).condition = t.clock.syncLoss)
    (ok : CopiesOk s) : CopiesOk t := by
  have raised {k : FaultKind} (named : k ∈ advanceKinds) (condition : isConditionKind k = true) :
      (faultOf t k).condition = detectorOf t k := by
    rw [h.faults k named]; exact conditionEntry_condition condition _ (ok k)
  have watchdog : t.sup.watchdog = s.sup.watchdog := by rw [h.supRest]
  intro k
  cases k with
  | syncLoss => exact sync
  | pictureStarved => exact raised (by decide) rfl
  | soundStarved => exact raised (by decide) rfl
  | keyLapsed => exact raised (by decide) rfl
  | unitCheck => rw [h.otherFaults _ (by decide)]; exact ok .unitCheck
  | cueOverrun => rw [h.otherFaults _ (by decide)]; exact ok .cueOverrun
  | access => rw [h.otherFaults _ (by decide)]; exact ok .access
  | watchdog =>
    rw [h.otherFaults _ (by decide)]
    exact (ok .watchdog).trans (congrArg (·.condition) watchdog.symm)
  | storeFail =>
    by_cases failed : CommitsAt s ∧ s.count.status = .failed
    · rw [h.storeFailed failed.1 failed.2]
      exact (Bool.or_false _).trans (ok .storeFail)
    · rw [h.storeNotFailed failed]; exact ok .storeFail

/-- An advance with the Show Clock TRACKING keeps the laws of the show. -/
theorem Advanced.showLaws {s t : State} (h : Advanced s t) (tracking : s.clock.substate = .tracking)
    (sync : CopiesOk s → (faultOf t .syncLoss).condition = t.clock.syncLoss) : ShowLawsKept s t :=
  ⟨h.showOk tracking, h.keysOk, fun ok => h.copiesOk (sync ok) ok⟩

theorem miss_showLaws {s : State} (tracking : s.clock.substate = .tracking) : ShowLawsKept s (miss s) := by
  obtain ⟨condition, entry⟩ := miss_syncLoss s
  refine (miss_advanced s).showLaws tracking fun ok => ?_
  rw [condition, entry]
  exact conditionEntry_condition rfl _ (ok .syncLoss)

theorem acceptEdge_showLaws {s : State} (tracking : s.clock.substate = .tracking) : ShowLawsKept s (acceptEdge s) := by
  obtain ⟨condition, entry⟩ := acceptEdge_syncLoss s
  refine (acceptEdge_advanced s).showLaws tracking fun ok => ?_
  rw [condition, entry]
  cases lost : s.clock.syncLoss
  · exact (ok .syncLoss).trans lost
  · rfl

theorem internalExpires_showLaws {s : State} (tracking : s.clock.substate = .tracking) :
    ShowLawsKept s (internalExpires s) := by
  obtain ⟨condition, entry⟩ := advance_leaves_syncLoss (s.setClock (nextUnit s s.clock))
  refine (internalExpires_advanced s).showLaws tracking fun ok => ?_
  exact (congrArg (·.condition) entry).trans ((ok .syncLoss).trans condition.symm)

/-! ### The Show Clock -/

theorem syncFound_showLaws (s : State) : ShowLawsKept s (syncFound s) := by
  unfold syncFound; split
  · exact withdraw_showLaws rfl s
  · exact .refl s

/-- The anchor edge takes the Show Clock from one sub-state out of IDLE to another. -/
theorem anchorEdge_showLaws {s : State} (awaiting : s.clock.substate = .awaitingAnchor) : ShowLawsKept s (anchorEdge s) := by
  unfold anchorEdge
  refine .trans ?_ (syncFound_showLaws _)
  exact .of_view rfl fun _ => by rw [awaiting]; decide

theorem lateEdge_showLaws {s : State} (tracking : s.clock.substate = .tracking) : ShowLawsKept s (lateEdge s) := by
  unfold lateEdge; dsimp only; split
  · exact (miss_showLaws tracking).trans (.of_same rfl rfl)
  · exact miss_showLaws tracking

theorem judgeEdge_showLaws {s : State} (tracking : s.clock.substate = .tracking) : ShowLawsKept s (judgeEdge s) := by
  unfold judgeEdge; split
  · exact .of_same rfl rfl
  · split
    · exact lateEdge_showLaws tracking
    · exact acceptEdge_showLaws tracking

theorem clockEdge_showLaws (s : State) : ShowLawsKept s (clockEdge s) := by
  have count : ShowLawsKept s (countEdge s) := .of_same rfl rfl
  cases substate : s.clock.substate with
  | idle => rw [clockEdge_idle substate]; exact count
  | awaitingAnchor =>
    rw [clockEdge_awaiting substate]
    exact count.trans (anchorEdge_showLaws (s := countEdge s) substate)
  | tracking =>
    cases source : isInternal s
    · rw [clockEdge_projector substate source]
      exact count.trans (judgeEdge_showLaws (s := countEdge s) substate)
    · rw [clockEdge_internal substate source]; exact count

theorem anchorExpires_showLaws (s : State) : ShowLawsKept s (anchorExpires s) :=
  (raiseCondition_showLaws rfl _ (s.setClock { s.clock with anchorDeadline := none })).after rfl rfl

/-! ### The Unpack Engine -/

@[simp] theorem putContext_starved (i : Bool) (c : Option UnitContext) (u : Unpack) :
    (putContext i c u).starved = u.starved := by
  cases i <;> rfl

@[simp] theorem useContext_starved (i : Bool) (c : UnitContext) (u : Unpack) : (useContext i c u).starved = u.starved := by
  simp [useContext]

@[simp] theorem abandon_starved (i : Bool) (u : Unpack) : (abandon i u).starved = u.starved := putContext_starved i none u

@[simp] theorem freeUnit_starved (unit : Nat) (u : Unpack) : (freeUnit unit u).starved = u.starved := by
  unfold freeUnit; split
  · exact putContext_starved _ _ u
  · rfl

@[simp] theorem claimContext_starved (unit length : Nat) (crc : BitVec 32) (u : Unpack) :
    (claimContext unit length crc u).starved = u.starved := by
  have claim : (claimFor unit u).2.starved = u.starved := by
    unfold claimFor; split
    · rfl
    · split
      · rfl
      · split
        · rfl
        · exact abandon_starved _ u
  rw [claimContext, useContext_starved, claim]

/-- A change of the Unpack Engine that leaves its starvation condition. -/
theorem setUnpack_showLaws {s : State} {u : Unpack} (h : u.starved = s.unpack.starved) : ShowLawsKept s (s.setUnpack u) := by
  refine .of_same ?_ rfl
  have conditions : conditionsOf (s.setUnpack u) = conditionsOf s := by
    funext k
    cases k
    case pictureStarved => exact congrArg (·, _) h
    all_goals rfl
  simp only [showView, conditions, setUnpack_ctl, setUnpack_keys]

theorem raiseUnitCheck_showLaws (cause : UnitCause) (place : EssencePlace) (s : State) :
    ShowLawsKept s (raiseUnitCheck cause place s) :=
  (raiseFault_showLaws rfl s.sound.ramp (noteUnitCheck cause place.unit place.reel s)).after rfl rfl

theorem completeUnit_showLaws (place : EssencePlace) (register crc : BitVec 32) (s : State) :
    ShowLawsKept s (completeUnit place register crc s) := by
  unfold completeUnit; split
  · exact setUnpack_showLaws rfl
  · exact raiseUnitCheck_showLaws _ _ s

theorem checkHeader_showLaws (place : EssencePlace) (stride : Nat) (opened : Line) (s : State) :
    ShowLawsKept s (checkHeader place stride opened s) := by
  have free : ShowLawsKept s (s.setUnpack (freeUnit place.unit s.unpack)) := setUnpack_showLaws (by simp)
  unfold checkHeader; dsimp only; split
  · exact free.trans (raiseUnitCheck_showLaws _ _ _)
  · split
    · exact free.trans (raiseUnitCheck_showLaws _ _ _)
    · split
      · exact free.trans (completeUnit_showLaws _ _ _ _)
      · exact setUnpack_showLaws (by simp)

theorem checkPayload_showLaws (place : EssencePlace) (i : Bool) (c : UnitContext) (opened : Line) (s : State) :
    ShowLawsKept s (checkPayload place i c opened s) := by
  unfold checkPayload; split
  · split
    · have free : ShowLawsKept s (s.setUnpack (putContext i none s.unpack)) := setUnpack_showLaws (by simp)
      exact free.trans (completeUnit_showLaws _ _ _ _)
    · exact setUnpack_showLaws (by simp)
  · exact setUnpack_showLaws (by simp)

theorem checkLine_showLaws (place : EssencePlace) (stride : Nat) (opened : Line) (s : State) :
    ShowLawsKept s (checkLine place stride opened s) := by
  unfold checkLine; split
  · exact checkHeader_showLaws place stride opened s
  · split
    · exact .refl s
    · split
      · exact checkPayload_showLaws place _ _ opened s
      · exact .refl s

theorem movePictureFrontier_showLaws (place : EssencePlace) (s : State) : ShowLawsKept s (movePictureFrontier place s) := by
  unfold movePictureFrontier; split
  · exact setUnpack_showLaws rfl
  · exact .refl s

theorem countWithheld_showLaws (kind : EssenceKind) (reason : WithheldReason) (s : State) :
    ShowLawsKept s (countWithheld kind reason s) := by
  cases kind <;> exact setUnpack_showLaws rfl

theorem sendUp_showLaws (m : UpMsg) (s : State) : ShowLawsKept s (sendUp m s) := .of_same rfl rfl

theorem pictureReturn_showLaws (txn : Nat) (x : Binding) (line : Line) (s : State) :
    ShowLawsKept s (pictureReturn txn x line s) := by
  unfold pictureReturn; split
  · exact (countWithheld_showLaws _ _ s).trans (sendUp_showLaws _ _)
  · exact ((checkLine_showLaws _ _ _ s).trans (movePictureFrontier_showLaws _ _)).trans (sendUp_showLaws _ _)

theorem soundReturn_showLaws (txn : Nat) (x : Binding) (line : Line) (s : State) :
    ShowLawsKept s (soundReturn txn x line s) := by
  unfold soundReturn; split
  · exact (countWithheld_showLaws _ _ s).trans (sendUp_showLaws _ _)
  · exact .of_same rfl rfl

theorem pictureError_showLaws (x : Binding) (s : State) : ShowLawsKept s (pictureError x s) := by
  unfold pictureError; split
  · exact .refl s
  · split
    · exact setUnpack_showLaws (by simp)
    · exact .refl s

/-! ### The Path Classifier and Cue Intake -/

theorem raiseAccess_showLaws (cause : AccessCause) (who : Originator) (x : Binding) (line : Nat) (s : State) :
    ShowLawsKept s (raiseAccess cause who x line s) :=
  (raiseFault_showLaws rfl s.sound.ramp (noteAccess cause who x.entry line s)).after rfl rfl

theorem forwardRead_showLaws (line : Nat) (who : Originator) (x : Binding) (route : Route) (s : State) :
    ShowLawsKept s (forwardRead line who x route s) := by
  unfold forwardRead; dsimp only; rw [sendSides_eq]; exact .of_same rfl rfl

theorem readArrives_showLaws (line : Nat) (who : Originator) (x : Binding) (s : State) :
    ShowLawsKept s (readArrives line who x s) := by
  unfold readArrives; split
  · exact (raiseAccess_showLaws _ _ _ _ (sendUp _ (takeTxn s))).after rfl rfl
  · have count : ShowLawsKept s (countRaw x.kind s) := by unfold countRaw; split <;> exact .of_same rfl rfl
    exact count.trans (forwardRead_showLaws _ _ _ _ _)
  · exact forwardRead_showLaws _ _ _ _ s

theorem writeArrives_showLaws (line : Nat) (who : Originator) (data : Line) (enables : BitVec 64) (x : Binding) (s : State) :
    ShowLawsKept s (writeArrives line who data enables x s) := by
  unfold writeArrives; split
  · exact .of_same rfl rfl
  · exact (raiseAccess_showLaws _ _ _ _ (sendUp _ (takeTxn s))).after rfl rfl

theorem joinDisplay_showLaws (r : ReadInFlight) (s : State) : ShowLawsKept s (joinDisplay r s) := by
  unfold joinDisplay; split
  · split
    · unfold displayReturn; split <;> exact .of_same rfl rfl
    · exact .of_same rfl rfl
  · exact .of_same rfl rfl

theorem readReturns_showLaws (r : ReadInFlight) (ans : ReadAnswer) (s : State) : ShowLawsKept s (readReturns r ans s) := by
  have drop : ShowLawsKept s (dropRead r.txn s) := .of_same rfl rfl
  cases ans with
  | data line =>
    unfold readReturns readData; dsimp only; split
    · exact .of_same rfl rfl
    · exact .of_same rfl rfl
    · exact drop.trans (pictureReturn_showLaws _ _ _ _)
    · exact drop.trans (soundReturn_showLaws _ _ _ _)
    · exact joinDisplay_showLaws _ s
  | error =>
    have failed := drop.trans (sendUp_showLaws (.readError r.txn) _)
    unfold readReturns readError; dsimp only; split
    · exact failed.trans (pictureError_showLaws _ _)
    all_goals exact failed

theorem putLane_showLaws (lane : LaneId) (x : Lane) (s : State) : ShowLawsKept s (putLane lane x s) := by
  cases lane <;> exact .of_same rfl rfl

theorem cueArrives_showLaws (lane : LaneId) (c : Cue) (s : State) : ShowLawsKept s (cueArrives lane c s) := by
  unfold cueArrives; dsimp only; split
  · exact (putLane_showLaws lane _ s).trans (raiseFault_showLaws rfl _ _)
  · exact putLane_showLaws lane _ s

theorem cueToLane_showLaws (lane : LaneId) (c : Cue) (s : State) : ShowLawsKept s (cueToLane lane c s) := by
  unfold cueToLane; split
  iterate 2 exact .of_same rfl rfl
  all_goals exact cueArrives_showLaws lane c s

theorem cueIntake_showLaws (data : Line) (enables : BitVec 64) (s : State) : ShowLawsKept s (cueIntake data enables s) := by
  unfold cueIntake; dsimp only; split
  · exact .of_same rfl rfl
  · split
    · exact .of_same rfl rfl
    · unfold cueFiltered; split
      · exact .of_same rfl rfl
      all_goals exact (cueToLane_showLaws _ _ (countTaken s)).after rfl rfl

theorem writeCompletes_showLaws (w : WriteInFlight) (ok : Bool) (s : State) : ShowLawsKept s (writeCompletes w ok s) := by
  unfold writeCompletes; dsimp only; split
  · exact (cueIntake_showLaws _ _ (sendUp _ (dropWrite w.txn s))).after rfl rfl
  · exact .of_same rfl rfl

/-! ### The Count Store and the Supervisor -/

theorem loadRam_showLaws (s : State) : ShowLawsKept s (loadRam s) := by
  rw [loadRam_eq]; exact .of_same rfl rfl

theorem storeCompletes_showLaws (w : StoreWrite) (s : State) : ShowLawsKept s (storeCompletes w s) := by
  unfold storeCompletes afterWrite; split
  · unfold reloadIfDue; split
    · exact (loadRam_showLaws _).after rfl rfl
    · exact .of_same rfl rfl
  · exact .of_same rfl rfl

theorem storeFails_showLaws (w : StoreWrite) (s : State) : ShowLawsKept s (storeFails w s) := by
  have first := (raiseFault_showLaws (k := .storeFail) rfl s.sound.ramp (failedStore w s)).after (s := s) rfl rfl
  unfold storeFails; dsimp only; split
  · exact first.trans (raiseFault_showLaws rfl _ _)
  · exact first

theorem licenceDeleted_showLaws (index : Fin 8) (s : State) : ShowLawsKept s (licenceDeleted index s) := by
  unfold licenceDeleted; split <;> exact .of_same rfl rfl

/-- A change of a fault entry that leaves its copy of the condition. -/
theorem modFault_showLaws {k : FaultKind} {f : FaultEntry → FaultEntry} (h : ∀ e, (f e).condition = e.condition) (s : State) :
    ShowLawsKept s (modFault k f s) := by
  refine ⟨id, id, fun copies m => ?_⟩
  rw [faultOf_modFault, detectorOf_modFault]; split
  · next same => subst same; exact (h _).trans (copies k)
  · exact copies m

theorem clearKind_showLaws (mask : BitVec 16) (s : State) (k : FaultKind) : ShowLawsKept s (clearKind mask s k) := by
  have emptied (t : State) : ShowLawsKept t (emptyRecord k t) := by
    cases k
    case access => exact .of_same rfl rfl
    case unitCheck => exact setUnpack_showLaws rfl
    all_goals exact .refl t
  unfold clearKind; split
  · refine .trans ?_ (emptied _)
    exact modFault_showLaws (f := fun e => { e with flag := false, latched := false }) (fun _ => rfl) s
  · exact .refl s

theorem clearKinds_showLaws (mask : BitVec 16) (kinds : List FaultKind) (s : State) :
    ShowLawsKept s (kinds.foldl (clearKind mask) s) := by
  induction kinds generalizing s with
  | nil => exact .refl s
  | cons k kinds ih => exact (clearKind_showLaws mask s k).trans (ih _)

theorem answer_showLaws (r : LinkResult) (d : Nat) (s : State) : ShowLawsKept s (answer r d s) := .of_same rfl rfl

theorem faultsCleared_showLaws (mask : BitVec 16) (s : State) : ShowLawsKept s (faultsCleared mask s) := by
  have cleared := clearKinds_showLaws mask allKinds s
  unfold faultsCleared; dsimp only; refine .trans ?_ (answer_showLaws _ _ _); split
  · exact cleared.trans (outputReturned_showLaws _ _)
  · exact cleared

/-- A change of the watchdog that leaves its condition. -/
theorem setWatchdog_showLaws {w : Watchdog} {s : State} (h : w.condition = s.sup.watchdog.condition) :
    ShowLawsKept s (setWatchdog w s) := by
  refine ⟨id, id, fun copies m => ?_⟩
  cases m
  case watchdog => exact (copies .watchdog).trans h.symm
  all_goals exact copies _

theorem watchdogFound_showLaws (s : State) : ShowLawsKept s (watchdogFound s) := by
  unfold watchdogFound; split
  · exact withdraw_showLaws rfl s
  · exact .refl s

theorem feed_showLaws (s : State) : ShowLawsKept s (feed s) := by
  unfold feed; split
  · exact (watchdogFound_showLaws s).trans (setWatchdog_showLaws rfl)
  · exact .refl s

theorem watchdogExpires_showLaws (s : State) : ShowLawsKept s (watchdogExpires s) := by
  unfold watchdogExpires
  refine .trans ?_ (raiseCondition_showLaws rfl _ _)
  exact setWatchdog_showLaws rfl

theorem watchdogWritten_showLaws (enabled : Bool) (interval : Nat) (s : State) :
    ShowLawsKept s (watchdogWritten enabled interval s) := by
  unfold watchdogWritten; split
  · exact setWatchdog_showLaws rfl
  · exact (watchdogFound_showLaws s).trans (setWatchdog_showLaws rfl)

theorem writeFurther_showLaws (k : FaultKind) (w : PolicyWrite) (s : State) : ShowLawsKept s (writeFurther k w s) := by
  cases k with
  | pictureStarved => exact setUnpack_showLaws rfl
  | watchdog => exact watchdogWritten_showLaws _ _ s
  | _ => exact .of_same rfl rfl

end Sys2Proof.Machine
end

section
/-! SUPPORT. Proofs/ShowSteps.lean: every step keeps the laws of the show: the show's commands, the key slots, the resets, and all
the commands together (R41, R44, R145). -/

namespace Sys2Proof.Machine

/-! ### LOAD SHOW, PRIME, PRIME PREVIEW -/

/-- A show LOADED without a mark, or PRIMED with one, of a record of a unit or more, with p 0 and the Show Clock IDLE. -/
theorem showOk_of_start {t : State} {r : ShowRecord} (record : t.ctl.record = some r) (total : 1 ≤ totalDuration r)
    (begun : t.ctl.state = .loaded ∧ t.ctl.mark = .none ∨ t.ctl.state = .primed ∧ t.ctl.mark ≠ .none)
    (position : t.ctl.position = 0) (idle : t.clock.substate = .idle) : ShowOk t := by
  have ended : t.ctl.position ≠ totalDuration r := by omega
  refine ⟨?_, ?_, fun _ => position, fun q hq => ?_, fun moving => absurd idle moving⟩
  · rcases begun with ⟨e, -⟩ | ⟨e, -⟩ <;> simp [record, e]
  · rcases begun with ⟨e, m⟩ | ⟨e, m⟩ <;> simp [m, e]
  · obtain rfl : r = q := Option.some.inj (record.symm.trans hq)
    refine ⟨total, by omega, iff_of_false ended ?_⟩
    rcases begun with ⟨e, -⟩ | ⟨e, -⟩ <;> simp [e]

/-- The Show Clock is IDLE while the show is not RUNNING. -/
theorem ShowOk.idle {s : State} (h : ShowOk s) (still : s.ctl.state ≠ .running) : s.clock.substate = .idle := by
  obtain ⟨-, -, -, -, paced⟩ := h
  by_contra moving
  exact still (paced moving)

/-- The record of a SHOW record that passes R39 has a unit or more. -/
theorem recordOfWrite_pos {w : ShowWrite} {s : State} (h : firstFailure (showChecks w s) = none) :
    1 ≤ totalDuration (recordOfWrite w) := by
  have checks := firstFailure_none.mp h
  simp only [showChecks, List.forall_mem_cons, Bool.and_eq_true, decide_eq_true_eq, List.all_eq_true, durationOk] at checks
  obtain ⟨-, -, -, -, -, -, -, -, ⟨one, -⟩, durations, -⟩ := checks
  refine totalDuration_pos (List.ne_nil_of_length_pos ?_) fun e he => ?_
  · show 0 < (w.reels.map reelOfWrite).length
    rw [List.length_map]; exact one
  · obtain ⟨x, hx, rfl⟩ := List.mem_map.mp he
    exact (durations x hx).1

/-- A show that is not marked full holds no slot. -/
theorem keysOk_of_notFull {s : State} (h : s.ctl.mark ≠ .full) : KeysOk s := fun full => absurd full h

theorem showLoaded_showLaws {w : ShowWrite} {s : State} (h : firstFailure (showChecks w (quiet s)) = none) :
    ShowLawsKept s (showLoaded w (quiet s)) := by
  have opened : tableOpen (quiet s) = true := firstFailure_none.mp h _ List.mem_cons_self
  have still : s.ctl.state ≠ .running := fun c => by
    unfold tableOpen isPrimed at opened; simp [c] at opened
  rw [showLoaded_eq]
  refine ⟨fun ok => ?_, fun _ => keysOk_of_notFull nofun, .of_detectors rfl rfl rfl rfl rfl⟩
  exact showOk_of_start rfl (recordOfWrite_pos h) (.inl ⟨rfl, rfl⟩) rfl (ok.idle still)

/-- The starvation conditions withdrawn, and the rest of what a priming does, keep the copies (R86, R98, R145). -/
theorem primeBlocks_copies {s : State} (ok : CopiesOk s) : CopiesOk (primeBlocks s) := by
  have picture := (withdraw_showLaws (k := .pictureStarved) rfl s).copies ok
  have sound := (withdraw_showLaws (k := .soundStarved) rfl _).copies picture
  exact CopiesOk.of_detectors rfl rfl rfl rfl rfl sound

theorem setKeys_copies {s : State} (keys : Vector KeySlot 16) (ok : CopiesOk s) : CopiesOk (s.setKeys keys) :=
  ok.of_detectors rfl rfl rfl rfl rfl

theorem answered_copies {s : State} (count : CountUnit) (ok : CopiesOk s) : CopiesOk (answer .ok 0 (s.setCount count)) :=
  ok.of_detectors rfl rfl rfl rfl rfl

/-- A show primed, as PRIME and PRIME PREVIEW leave it, keeps the show's law. -/
theorem ShowOk.primes {s t : State} (h : ShowOk s) (loaded : s.ctl.state = .loaded) (record : t.ctl.record = s.ctl.record)
    (state : t.ctl.state = .primed) (mark : t.ctl.mark ≠ .none) (position : t.ctl.position = 0)
    (clock : t.clock.substate = s.clock.substate) : ShowOk t := by
  have idle := h.idle (by rw [loaded]; decide)
  obtain ⟨absent, -, -, bounds, -⟩ := h
  have present : s.ctl.record ≠ none := fun c => by rw [absent, loaded] at c; cases c
  obtain ⟨r, hr⟩ := Option.ne_none_iff_exists'.mp present
  exact showOk_of_start (record.trans hr) (bounds r hr).1 (.inr ⟨state, mark⟩) position (clock.trans idle)

theorem stateCheck_pass {st : ShowState} {s : State} (h : (stateCheck st s).pass = true) : s.ctl.state = st := eq_of_beq h

/-- The checks of a reel of the record are among those of PRIME. -/
theorem reelChecks_subset {r : ShowRecord} {s : State} {reels : List Reel} {e : Reel} (h : e ∈ reels) (i : Nat) :
    ∃ j, ∀ c ∈ reelChecks r s j e, c ∈ allReelChecks r s i reels := by
  induction reels generalizing i with
  | nil => exact absurd h List.not_mem_nil
  | cons a reels ih =>
    rw [allReelChecks]
    rcases List.mem_cons.mp h with rfl | tail
    · exact ⟨i, fun c hc => List.mem_append_left _ hc⟩
    · obtain ⟨j, sub⟩ := ih tail (i + 1)
      exact ⟨j, fun c hc => List.mem_append_right _ (sub c hc)⟩

/-- PRIME is accepted only with every named key slot LOADED (R43, checks 15 and 18). -/
theorem namedKeys_loaded {r : ShowRecord} {s : State}
    (h : firstFailure (primeChecks r s ++ allReelChecks r s 0 r.reels) = none) {i : Fin 16} (named : i ∈ namedKeys r) :
    isLoadedKey s.keys[i] = true := by
  have checks := firstFailure_none.mp h
  obtain ⟨e, reel, slot⟩ := (mem_namedKeys r i).mp named
  obtain ⟨j, sub⟩ := reelChecks_subset (r := r) (s := s) reel 0
  have passes (c : Check) (hc : c ∈ reelChecks r s j e) : c.pass = true := checks c (List.mem_append_right _ (sub c hc))
  simp only [reelChecks, List.forall_mem_cons] at passes
  obtain ⟨-, -, -, -, -, picture, -, -, sound, -⟩ := passes
  rcases slot with rfl | rfl
  · exact picture
  · exact sound

theorem isHeld_takeSlot {x : KeySlot} (h : isLoadedKey x = true) : isHeld (takeSlot x) = true := by
  obtain ⟨f, m, rfl⟩ := (isLoadedKey_iff x).mp h; rfl

theorem showPrimed_showLaws {r : ShowRecord} {s : State} (record : s.ctl.record = some r)
    (h : firstFailure (primeChecks r (quiet s) ++ allReelChecks r (quiet s) 0 r.reels) = none) :
    ShowLawsKept s (showPrimed r (quiet s)) := by
  have loaded : s.ctl.state = .loaded :=
    stateCheck_pass (s := quiet s) (firstFailure_none.mp h _ (List.mem_append_left _ List.mem_cons_self))
  refine ⟨fun ok => ?_, fun _ _ q hq i named => ?_, fun ok => ?_⟩
  · rw [showPrimed_eq]
    exact ok.primes loaded rfl rfl nofun rfl rfl
  · rw [showPrimed_eq] at hq ⊢
    obtain rfl : r = q := Option.some.inj (record.symm.trans hq)
    have taken : (Vector.ofFn fun i : Fin 16 => if i ∈ namedKeys r then takeSlot s.keys[i] else s.keys[i])[i] =
        takeSlot s.keys[i] := by
      rw [Fin.getElem_fin, Vector.getElem_ofFn, if_pos named]
    exact (congrArg isHeld taken).trans (isHeld_takeSlot (namedKeys_loaded (s := quiet s) h named))
  · have begun : CopiesOk (primeCtl .full (commitUnitOf (totalDuration r)
        (slotLicence (quiet s).count.ram.licences[r.licenceSlot]).permille) (quiet s)) := .of_detectors rfl rfl rfl rfl rfl ok
    exact answered_copies _ (setKeys_copies _ (primeBlocks_copies begun))

theorem previewPrimed_showLaws {s : State} (loaded : s.ctl.state = .loaded) : ShowLawsKept s (previewPrimed (quiet s)) := by
  refine ⟨fun ok => ?_, ?_, fun ok => ?_⟩
  · rw [previewPrimed_eq]
    exact ok.primes loaded rfl rfl nofun rfl rfl
  · rw [previewPrimed_eq]
    exact fun _ => keysOk_of_notFull nofun
  · have begun : CopiesOk (primeCtl .preview 0 (quiet s)) := .of_detectors rfl rfl rfl rfl rfl ok
    exact answered_copies _ (primeBlocks_copies begun)

/-! ### START, RESUME, HOLD -/

/-- The Show Clock leaving IDLE changes itself alone, and not SYNC_LOSS. -/
theorem clockLeaves_eq_setClock (s : State) :
    clockLeaves s = s.setClock { (clockLeaves s).clock with syncLoss := s.clock.syncLoss } := by
  unfold clockLeaves; dsimp only; split <;> rfl

theorem showStarted_showLaws {s : State} (primed : s.ctl.state = .primed) : ShowLawsKept s (showStarted s) := by
  obtain ⟨cues, link, rest⟩ := activateLanes_does 0 (showTotal s) (clockLeaves
    ((setShowState .running (s.setCtl { s.ctl with position := 0 })).setClock (clearClockCounts s.clock)))
  have started : showStarted s = answer .ok 0 _ := congrArg (answer .ok 0) rest
  rw [started, clockLeaves_eq_setClock]
  refine ⟨fun ok => ?_, .of_same rfl rfl rfl, .of_detectors rfl rfl rfl rfl rfl⟩
  have ⟨_, _, start, _, _⟩ := ok
  exact ok.moves (.inl primed) (.inl rfl) rfl rfl (start (.inr (.inr primed))).symm fun _ => rfl

theorem showResumed_showLaws {s : State} (held : s.ctl.state = .held) : ShowLawsKept s (showResumed s) := by
  unfold showResumed
  rw [clockLeaves_eq_setClock]
  refine ⟨fun ok => ?_, .of_same rfl rfl rfl, .of_detectors rfl rfl rfl rfl rfl⟩
  exact ok.moves (.inr (.inr held)) (.inl rfl) rfl rfl rfl fun _ => rfl

/-! ### STOP, UNLOAD -/

/-- Keys released change the key slots alone. -/
theorem releaseKeys_eq_setKeys (s : State) : releaseKeys s = s.setKeys (releaseKeys s).keys := by
  unfold releaseKeys; split
  · split <;> rfl
  · rfl

theorem withdrawShow_copies {s : State} (ok : CopiesOk s) : CopiesOk (withdrawShow s) := by
  have sync := (withdraw_showLaws (k := .syncLoss) rfl s).copies ok
  have picture := (withdraw_showLaws (k := .pictureStarved) rfl _).copies sync
  have sound := (withdraw_showLaws (k := .soundStarved) rfl _).copies picture
  exact (withdraw_showLaws (k := .keyLapsed) rfl _).copies sound

theorem showStopped_showLaws {s : State} (primed : isPrimed s = true) : ShowLawsKept s (showStopped s) := by
  have stopped : showStopped s = answer .ok 0 (withdrawShow ((clearSoundShow (clearUnpackShow (activateMask (flushLanes
      (clockIdle (stopCtl (s.setKeys (releaseKeys s).keys))))))).setCount { s.count with reserved := none })) := by
    rw [← releaseKeys_eq_setKeys, stopBlocks_eq, showStopped, stopBlocks_eq, releaseKeys_eq_setKeys]; rfl
  rw [stopped]
  refine ⟨fun ok => ?_, ?_, fun ok => ?_⟩
  · rw [withdrawShow_eq, stopBlocks_eq]
    obtain ⟨absent, -, -, bounds, -⟩ := ok
    have present : s.ctl.record ≠ none := fun c => by rw [absent] at c; unfold isPrimed at primed; simp [c] at primed
    obtain ⟨r, hr⟩ := Option.ne_none_iff_exists'.mp present
    exact showOk_of_start hr (bounds r hr).1 (.inl ⟨rfl, rfl⟩) rfl rfl
  · rw [withdrawShow_eq, stopBlocks_eq]
    exact fun _ => keysOk_of_notFull nofun
  · refine (answer_showLaws _ _ _).copies (withdrawShow_copies ?_)
    rw [stopBlocks_eq]
    exact .of_detectors rfl rfl rfl rfl rfl ok

theorem showUnloaded_showLaws {s : State} (loaded : s.ctl.state = .loaded) : ShowLawsKept s (showUnloaded s) := by
  refine ⟨fun ok => ?_, fun _ _ => nofun, .of_detectors rfl rfl rfl rfl rfl⟩
  have idle := ok.idle (by rw [loaded]; decide)
  obtain ⟨-, marked, -, -, -⟩ := ok
  exact ⟨iff_of_true rfl rfl, iff_of_true (marked.mpr (.inr loaded)) (.inl rfl), fun _ => rfl, nofun, fun c => absurd idle c⟩

/-! ### The key slots -/

/-- A change of the key slots that leaves every held slot held keeps the laws. -/
theorem setKeys_showLaws {s : State} {keys : Vector KeySlot 16}
    (h : ∀ i : Fin 16, isHeld s.keys[i] = true → isHeld keys[i] = true) : ShowLawsKept s (s.setKeys keys) :=
  ⟨id, fun ok full r record i named => h i (ok full r record i named), id⟩

/-- A slot replaced that was not held. -/
theorem putKey_showLaws {s : State} {index : Fin 16} (free : isHeld s.keys[index] = false) (x : KeySlot) :
    ShowLawsKept s (s.setKeys (vput s.keys index x)) := by
  refine setKeys_showLaws fun i held => ?_
  have other : index ≠ i := by rintro rfl; rw [free] at held; cases held
  rw [vput_get_other _ _ other]; exact held

theorem isHeld_of_slotFree {x : KeySlot} (h : slotFree x = true) : isHeld x = false := by
  cases x with
  | empty => rfl
  | expired f => rfl
  | _ => exact nomatch h

theorem isHeld_of_slotPurgeable {x : KeySlot} (h : slotPurgeable x = true) : isHeld x = false := by
  cases x with
  | inUse f m => exact nomatch h
  | lapsed f m grace => exact nomatch h
  | _ => rfl

/-- An expiry holds a slot that was held: IN_USE becomes LAPSED (R63). -/
theorem isHeld_expireSlot (now grace : Nat) {x : KeySlot} (h : isHeld x = true) : isHeld (expireSlot now grace x) = true := by
  cases x with
  | inUse f m => unfold expireSlot; dsimp only; split <;> rfl
  | lapsed f m g => rfl
  | _ => exact nomatch h

theorem keyExpires_showLaws (index : Fin 16) (s : State) :
    ShowLawsKept s (s.setKeys (vput s.keys index (expireSlot s.secure.time (showReel s) s.keys[index]))) := by
  refine setKeys_showLaws fun i held => ?_
  rw [vput_get]; split
  · next same => subst same; exact isHeld_expireSlot _ _ held
  · exact held

theorem expireKeys_showLaws (s : State) : ShowLawsKept s (expireKeys s) := by
  unfold expireKeys; split
  · refine setKeys_showLaws fun i held => ?_
    rw [Fin.getElem_fin, vmap_getElem]; exact isHeld_expireSlot _ _ held
  · exact .refl s

theorem timeTrimmed_showLaws (d : BitVec 16) (s : State) : ShowLawsKept s (timeTrimmed d s) := by
  have expired := (expireKeys_showLaws (s.setSecure (trimmed (openYear s.secure)
    (appliedDelta (openYear s.secure) d.toInt)))).after (s := s) rfl rfl
  exact expired.trans (.of_same rfl rfl)

/-! ### Resets -/

/-- A state in which the show and the conditions are as after reset keeps the laws. -/
theorem showLaws_of_reset {s t : State} (e : showView t = showView State.reset) (idle : t.clock.substate = .idle) :
    ShowLawsKept s t := by
  have kept : ShowLawsKept State.reset t := .of_same e idle
  exact ⟨fun _ => kept.playback showOk_reset, fun _ => kept.keys keysOk_reset, fun _ => kept.copies copiesOk_reset⟩

theorem boothReset_showLaws (s t : State) : ShowLawsKept s (boothResetAll t) := by
  rw [boothResetAll_eq]; exact showLaws_of_reset rfl rfl

theorem powerOnReset_showLaws (supplyHeld readable : Bool) (straps : BitVec 2) (s : State) :
    ShowLawsKept s (if readable then loadRam (powerBlocks supplyHeld readable straps s)
      else powerBlocks supplyHeld readable straps s) := by
  have powered : ShowLawsKept s (powerBlocks supplyHeld readable straps s) := showLaws_of_reset rfl rfl
  split
  · exact powered.trans (loadRam_showLaws _)
  · exact powered

/-! ### Events and requests -/

theorem quiet_showLaws (s : State) : ShowLawsKept s (quiet s) := .of_same rfl rfl

theorem whenOn_showLaws {s : State} {f : State → State} (h : ShowLawsKept (quiet s) (f (quiet s))) :
    ShowLawsKept s (whenOn s f) :=
  whenOn_keeps (quiet_showLaws s) ((quiet_showLaws s).trans h)

theorem onLink_showLaws {n : Nat} {s : State} {f : State → State} (h : ShowLawsKept s (f (quiet s))) :
    ShowLawsKept s (onLink n s f) := onLink_keeps (.of_same rfl rfl) h fun _ k => k.trans (.of_same rfl rfl)

theorem checked_showLaws {checks : List Check} {accept : State → State} {s : State}
    (h : firstFailure checks = none → ShowLawsKept s (accept (quiet s))) :
    ShowLawsKept s (checked checks accept (quiet s)) :=
  checked_keeps h fun _ _ => .of_same rfl rfl

/-- A request that, carried out, keeps the laws. -/
theorem request_showLaws {n : Nat} {s : State} {checks : State → List Check} {accept : State → State}
    (h : firstFailure (checks (quiet s)) = none → ShowLawsKept s (accept (quiet s))) :
    ShowLawsKept s (onLink n s fun s => checked (checks s) accept s) :=
  onLink_showLaws (checked_showLaws h)

/-- A request of the show, which its first check admits in one state alone. -/
theorem showRequest_showLaws {n : Nat} {s : State} {st : ShowState} {checks : State → List Check} {accept : State → State}
    (h : (quiet s).ctl.state = st → ShowLawsKept s (accept (quiet s))) :
    ShowLawsKept s (onLink n s fun s => checked (stateCheck st s :: checks s) accept s) :=
  request_showLaws fun passed => h (stateCheck_pass (firstFailure_none.mp passed _ List.mem_cons_self))

/-- An event whose effect comes only when it is due keeps what its effect keeps. -/
theorem due_showLaws {s : State} {due : State → Bool} {f : State → State}
    (h : due (quiet s) = true → ShowLawsKept (quiet s) (f (quiet s))) :
    ShowLawsKept s (whenOn s fun s => if due s then f s else s) := by
  apply whenOn_showLaws; split
  · next now => exact h now
  · exact .refl _

/-! ### Every command -/

/-- Every command has a next state, which keeps the laws of the show. -/
theorem exec_showLaws (c : Instr) (s : State) : ∃ t, exec c s = .next t ∧ ShowLawsKept s t := by
  cases c with
  | lineRead addr who => exact ⟨_, rfl, whenOn_showLaws (readArrives_showLaws _ _ _ (quiet s))⟩
  | lineWrite addr who data enables => exact ⟨_, rfl, whenOn_showLaws (writeArrives_showLaws _ _ _ _ _ (quiet s))⟩
  | readReturn txn ans =>
    refine ⟨_, rfl, whenOn_showLaws ?_⟩; split
    · exact readReturns_showLaws _ _ (quiet s)
    · exact .refl _
  | sideReadReturn txn lane ans =>
    refine ⟨_, rfl, whenOn_showLaws ?_⟩; split
    · exact joinDisplay_showLaws _ (quiet s)
    · exact .refl _
  | writeCompletion txn ok =>
    refine ⟨_, rfl, whenOn_showLaws ?_⟩; split
    · exact writeCompletes_showLaws _ _ (quiet s)
    · exact .refl _
  | fsyncInEdge =>
    refine ⟨_, rfl, whenOn_showLaws ?_⟩; split
    · exact .refl _
    · exact clockEdge_showLaws (quiet s)
  | windowExpiry => exact ⟨_, rfl, due_showLaws fun due => miss_showLaws ((windowDue_iff _).mp due).1⟩
  | anchorTimeout => exact ⟨_, rfl, due_showLaws fun _ => anchorExpires_showLaws (quiet s)⟩
  | internalExpiry => exact ⟨_, rfl, due_showLaws fun due => internalExpires_showLaws ((internalDue_iff _).mp due).1⟩
  | loadShow w => exact ⟨_, rfl, request_showLaws showLoaded_showLaws⟩
  | prime =>
    refine ⟨_, rfl, onLink_showLaws ?_⟩; split
    · exact .of_same rfl rfl
    · next record => exact checked_showLaws (showPrimed_showLaws record)
  | primePreview => exact ⟨_, rfl, showRequest_showLaws (checks := fun _ => []) (previewPrimed_showLaws (s := s))⟩
  | start =>
    exact ⟨_, rfl, showRequest_showLaws (checks := fun s => [unlatchedCheck s]) fun primed =>
      (quiet_showLaws s).trans (showStarted_showLaws primed)⟩
  | hold =>
    exact ⟨_, rfl, showRequest_showLaws (checks := fun _ => []) fun running =>
      ((quiet_showLaws s).trans (holdShow_showLaws _ running)).trans (answer_showLaws _ _ _)⟩
  | resume =>
    exact ⟨_, rfl, showRequest_showLaws (checks := fun s => [unlatchedCheck s]) fun held =>
      (quiet_showLaws s).trans (showResumed_showLaws held)⟩
  | stop =>
    exact ⟨_, rfl, request_showLaws fun passed =>
      (quiet_showLaws s).trans (showStopped_showLaws (firstFailure_none.mp passed _ List.mem_cons_self))⟩
  | unload =>
    exact ⟨_, rfl, showRequest_showLaws (checks := fun _ => []) fun loaded =>
      (quiet_showLaws s).trans (showUnloaded_showLaws loaded)⟩
  | regionRecord index w => exact ⟨_, rfl, request_showLaws fun _ => .of_same rfl rfl⟩
  | loadKey index blob check =>
    refine ⟨_, rfl, request_showLaws fun passed => ?_⟩
    have free := isHeld_of_slotFree (firstFailure_none.mp passed _ List.mem_cons_self)
    exact ((quiet_showLaws s).trans (putKey_showLaws free _)).trans (answer_showLaws _ _ _)
  | purgeKey index =>
    refine ⟨_, rfl, request_showLaws fun passed => ?_⟩
    have free := isHeld_of_slotPurgeable (firstFailure_none.mp passed _ List.mem_cons_self)
    exact ((quiet_showLaws s).trans (putKey_showLaws free _)).trans (answer_showLaws _ _ _)
  | keyExpiry index => exact ⟨_, rfl, due_showLaws fun _ => keyExpires_showLaws index (quiet s)⟩
  | secureTick =>
    refine ⟨_, rfl, ?_⟩; split
    · dsimp only; split
      · exact (expireKeys_showLaws ((quiet s).setSecure _)).after rfl rfl
      · exact .of_same rfl rfl
    · exact quiet_showLaws s
  | trimYearClose => refine ⟨_, rfl, ?_⟩; split <;> exact .of_same rfl rfl
  | setTime t => exact ⟨_, rfl, request_showLaws fun _ => .of_same rfl rfl⟩
  | trimTime d => exact ⟨_, rfl, request_showLaws fun _ => (quiet_showLaws s).trans (timeTrimmed_showLaws d _)⟩
  | loadLicence index blob check => exact ⟨_, rfl, request_showLaws fun _ => .of_same rfl rfl⟩
  | deleteLicence index =>
    exact ⟨_, rfl, request_showLaws fun _ => (quiet_showLaws s).trans (licenceDeleted_showLaws index _)⟩
  | popLog seq => exact ⟨_, rfl, request_showLaws fun _ => .of_same rfl rfl⟩
  | setScreen id => exact ⟨_, rfl, request_showLaws fun _ => .of_same rfl rfl⟩
  | storeWriteCompletion =>
    refine ⟨_, rfl, whenOn_showLaws ?_⟩; split
    · exact storeCompletes_showLaws _ (quiet s)
    all_goals exact .refl _
  | storeWriteFailure =>
    refine ⟨_, rfl, whenOn_showLaws ?_⟩; split
    · exact storeFails_showLaws _ (quiet s)
    all_goals exact .refl _
  | clearFaults mask => exact ⟨_, rfl, onLink_showLaws ((quiet_showLaws s).trans (faultsCleared_showLaws mask _))⟩
  | tickle =>
    exact ⟨_, rfl, onLink_showLaws (((quiet_showLaws s).trans (feed_showLaws _)).trans (answer_showLaws _ _ _))⟩
  | wdTick =>
    refine ⟨_, rfl, whenOn_showLaws ?_⟩; split
    · exact .refl _
    · refine .trans ?_ (feed_showLaws _)
      exact setWatchdog_showLaws rfl
  | watchdogExpiry => exact ⟨_, rfl, due_showLaws fun _ => watchdogExpires_showLaws (quiet s)⟩
  | setMute mask => exact ⟨_, rfl, onLink_showLaws (.of_same rfl rfl)⟩
  | laneEnable bits => exact ⟨_, rfl, onLink_showLaws (.of_same rfl rfl)⟩
  | ackEvents mask => exact ⟨_, rfl, onLink_showLaws (.of_same rfl rfl)⟩
  | reset => exact ⟨_, rfl, onLink_showLaws ((boothReset_showLaws s (quiet s)).trans (answer_showLaws _ _ _))⟩
  | boothReset midTransfer =>
    refine ⟨_, rfl, ?_⟩; dsimp only; split
    · exact (boothReset_showLaws s ((quiet s).setPower _)).trans (.of_same rfl rfl)
    · exact .of_same rfl rfl
  | brstNRelease => exact ⟨_, rfl, .of_same rfl rfl⟩
  | powerOnReset supplyHeld readable straps => exact ⟨_, rfl, powerOnReset_showLaws supplyHeld readable straps s⟩
  | writeFilter index w =>
    refine ⟨_, rfl, onLink_showLaws ?_⟩; split <;> exact .of_same rfl rfl
  | writeDefaultAction action =>
    refine ⟨_, rfl, onLink_showLaws ?_⟩; split <;> exact .of_same rfl rfl
  | writeLowMark lane mark =>
    exact ⟨_, rfl, request_showLaws fun _ => ((quiet_showLaws s).trans (putLane_showLaws lane _ _)).trans (answer_showLaws _ _ _)⟩
  | writePolicy kind w =>
    refine ⟨_, rfl, request_showLaws fun _ => .trans ?_ (answer_showLaws _ _ _)⟩
    exact (writeFurther_showLaws kind w (putPolicy kind (policyEntryOf w) (quiet s))).after rfl rfl
  | writeEvents enables selects => exact ⟨_, rfl, onLink_showLaws (.of_same rfl rfl)⟩
  | writeClock window lossLimit => exact ⟨_, rfl, request_showLaws fun _ => .of_same rfl rfl⟩
  | readRecord table index =>
    refine ⟨_, rfl, onLink_showLaws ?_⟩; split <;> exact .of_same rfl rfl
  | readTransfer count => exact ⟨_, rfl, onLink_showLaws (.of_same rfl rfl)⟩
  | badCrc packet => refine ⟨_, rfl, onLink_showLaws ?_⟩; split <;> exact .of_same rfl rfl
  | badLengthTruncated staged => refine ⟨_, rfl, onLink_showLaws ?_⟩; split <;> exact .of_same rfl rfl
  | unrecognisedPacket op table index data =>
    refine ⟨_, rfl, onLink_showLaws ?_⟩; split
    · unfold dispatchRefused; split <;> exact .of_same rfl rfl
    · exact quiet_showLaws s
  | lossOfPower backupFails => exact ⟨_, rfl, .of_same rfl rfl⟩

theorem idle_showLaws (s : State) : ShowLawsKept s (idle s) := by
  unfold idle; split
  · dsimp only; rw [countMicrosecond_quiet]; exact .of_same rfl rfl
  · exact quiet_showLaws s

theorem isHeld_iff (x : KeySlot) : isHeld x = true ↔ (∃ f m, x = .inUse f m) ∨ ∃ f m grace, x = .lapsed f m grace := by
  cases x <;> simp [isHeld]

/-- Settles O59: a step is an idle microsecond or a command, and each keeps the three laws. -/
theorem stepsKeepTheShow : Obligations.StepsKeepTheShow := by
  unfold Obligations.StepsKeepTheShow
  refine ⟨fun s t h => ?_, isHeld_iff⟩
  suffices kept : ShowLawsKept s t from ⟨kept.playback, kept.keys, kept.copies⟩
  unfold step at h
  split at h
  · exact Host.Outcome.next.inj h ▸ idle_showLaws s
  · next c rest _ =>
    obtain ⟨u, hu, kept⟩ := exec_showLaws c (s.setPending rest)
    exact Host.Outcome.next.inj (hu.symm.trans h) ▸ kept.after rfl rfl

end Sys2Proof.Machine
end

section
/-! SUPPORT. Proofs/SecureFrames.lean: the key slots and the Secure Clock as one view of the state, and the operations that leave it:
raises, the advance, the Show Clock, reads and writes, the show's requests that take no slot, the Count Store, the Supervisor (R58, R65). -/

namespace Sys2Proof.Machine

/-- The key slots and the Secure Clock. -/
def secureView (s : State) : Vector KeySlot 16 × SecureClock := (s.keys, s.secure)

theorem secureView_eq {s t : State} (keys : t.keys = s.keys) (secure : t.secure = s.secure) : secureView t = secureView s :=
  Prod.ext keys secure

/-! ### Raises, holds, ramps -/

theorem raiseFault_secureView (b : GainRamp) (k : FaultKind) (s : State) : secureView (raiseFault b k s) = secureView s :=
  secureView_eq (by simp) (by simp)

theorem raiseCondition_secureView (b : GainRamp) (k : FaultKind) (s : State) :
    secureView (raiseCondition b k s) = secureView s := secureView_eq (by simp) (by simp)

theorem withdraw_secureView (k : FaultKind) (s : State) : secureView (withdraw k s) = secureView s :=
  secureView_eq (by simp) (by simp)

theorem outputReturned_secureView (b : GainRamp) (s : State) : secureView (outputReturned b s) = secureView s :=
  secureView_eq (by simp) (by simp)

/-! ### The advance and the Show Clock -/

theorem Kept.secureView {s t : State} (h : Kept s t) : secureView t = secureView s := secureView_eq h.keys h.secure

theorem advance_secureView (reactions : List Reaction) (s : State) :
    secureView (advance reactions s) = secureView s := by
  have taken : secureView (takeAdvance (s.setFree (s.free + 1))) = secureView s := by
    unfold takeAdvance; dsimp only; split <;> rfl
  exact (foldl_kept _ _ _).secureView.trans taken

theorem activateLanes_secureView (p bound : Nat) (s : State) : secureView (activateLanes p bound s) = secureView s :=
  ((activateLane_kept .a p bound s).trans (activateLane_kept .b p bound _)).secureView

theorem syncFound_secureView (s : State) : secureView (syncFound s) = secureView s := by rw [syncFound_eq]; rfl

theorem miss_secureView (s : State) : secureView (miss s) = secureView s := advance_secureView _ (s.setClock _)

theorem clockEdge_secureView (s : State) : secureView (clockEdge s) = secureView s := by
  have late : secureView (lateEdge (countEdge s)) = secureView s := by
    unfold lateEdge; dsimp only; split <;> exact miss_secureView (countEdge s)
  have accepted : secureView (acceptEdge (countEdge s)) = secureView s :=
    (advance_secureView _ _).trans (syncFound_secureView _)
  unfold clockEdge; split
  · rfl
  · exact syncFound_secureView _
  · split
    · rfl
    · unfold judgeEdge; split
      · rfl
      · split
        · exact late
        · exact accepted

theorem clockLeaves_secureView (s : State) : secureView (clockLeaves s) = secureView s := by
  unfold clockLeaves; dsimp only; split <;> rfl

/-! ### The Unpack Engine -/

theorem raiseUnitCheck_secureView (cause : UnitCause) (place : EssencePlace) (s : State) :
    secureView (raiseUnitCheck cause place s) = secureView s := raiseFault_secureView _ _ _

theorem completeUnit_secureView (place : EssencePlace) (register crc : BitVec 32) (s : State) :
    secureView (completeUnit place register crc s) = secureView s := by
  unfold completeUnit; split
  · rfl
  · exact raiseUnitCheck_secureView _ _ _

theorem checkHeader_secureView (place : EssencePlace) (stride : Nat) (opened : Line) (s : State) :
    secureView (checkHeader place stride opened s) = secureView s := by
  unfold checkHeader; dsimp only; repeat' split
  iterate 2 exact raiseUnitCheck_secureView _ _ _
  · exact completeUnit_secureView _ _ _ _
  · rfl

theorem checkPayload_secureView (place : EssencePlace) (i : Bool) (c : UnitContext) (opened : Line) (s : State) :
    secureView (checkPayload place i c opened s) = secureView s := by
  unfold checkPayload; repeat' split
  · exact completeUnit_secureView _ _ _ _
  all_goals rfl

theorem checkLine_secureView (place : EssencePlace) (stride : Nat) (opened : Line) (s : State) :
    secureView (checkLine place stride opened s) = secureView s := by
  unfold checkLine; split
  · exact checkHeader_secureView _ _ _ _
  · split
    · rfl
    · split
      · exact checkPayload_secureView _ _ _ _ _
      · rfl

theorem movePictureFrontier_secureView (place : EssencePlace) (s : State) :
    secureView (movePictureFrontier place s) = secureView s := by
  unfold movePictureFrontier; split <;> rfl

theorem countWithheld_secureView (kind : EssenceKind) (reason : WithheldReason) (s : State) :
    secureView (countWithheld kind reason s) = secureView s := by cases kind <;> rfl

theorem pictureReturn_secureView (txn : Nat) (x : Binding) (line : Line) (s : State) :
    secureView (pictureReturn txn x line s) = secureView s := by
  unfold pictureReturn; split
  · exact countWithheld_secureView _ _ s
  · exact (movePictureFrontier_secureView _ _).trans (checkLine_secureView _ _ _ s)

theorem soundReturn_secureView (txn : Nat) (x : Binding) (line : Line) (s : State) :
    secureView (soundReturn txn x line s) = secureView s := by
  unfold soundReturn; split
  · exact countWithheld_secureView _ _ s
  · rfl

/-! ### Reads and writes -/

theorem raiseAccess_secureView (cause : AccessCause) (who : Originator) (x : Binding) (line : Nat) (s : State) :
    secureView (raiseAccess cause who x line s) = secureView s := by
  rw [raiseAccess, noteAccess_eq]; exact raiseFault_secureView _ _ _

theorem readArrives_secureView (line : Nat) (who : Originator) (x : Binding) (s : State) :
    secureView (readArrives line who x s) = secureView s := by
  unfold readArrives; split
  · exact raiseAccess_secureView _ _ _ _ _
  · rw [forwardRead_eq, countRaw_eq]; rfl
  · rw [forwardRead_eq]; rfl

theorem writeArrives_secureView (line : Nat) (who : Originator) (data : Line) (enables : BitVec 64) (x : Binding)
    (s : State) : secureView (writeArrives line who data enables x s) = secureView s := by
  unfold writeArrives; split
  · rfl
  · exact raiseAccess_secureView _ _ _ _ _

theorem joinDisplay_secureView (r : ReadInFlight) (s : State) : secureView (joinDisplay r s) = secureView s := by
  unfold joinDisplay; split
  · split
    · rw [displayReturn_eq]; rfl
    · rfl
  · rfl

theorem readReturns_secureView (r : ReadInFlight) (ans : ReadAnswer) (s : State) :
    secureView (readReturns r ans s) = secureView s := by
  cases ans with
  | data line =>
    unfold readReturns readData; dsimp only; split
    iterate 2 rfl
    · exact pictureReturn_secureView _ _ _ _
    · exact soundReturn_secureView _ _ _ _
    · exact joinDisplay_secureView _ s
  | error =>
    by_cases picture : r.route = .picture
    · rw [readReturns, readError_picture picture]; rfl
    · rw [readReturns, readError_other picture]; rfl

theorem cueToLane_secureView (lane : LaneId) (c : Cue) (s : State) : secureView (cueToLane lane c s) = secureView s := by
  have put (x : Lane) : secureView (putLane lane x s) = secureView s := by cases lane <;> rfl
  have arrives : secureView (cueArrives lane c s) = secureView s := by
    unfold cueArrives; dsimp only; split
    · exact (raiseFault_secureView _ _ _).trans (put _)
    · exact put _
  unfold cueToLane; split
  iterate 2 rfl
  all_goals exact arrives

theorem cueIntake_secureView (data : Line) (enables : BitVec 64) (s : State) :
    secureView (cueIntake data enables s) = secureView s := by
  unfold cueIntake; dsimp only; split
  · rfl
  · split
    · rfl
    · unfold cueFiltered; split
      · rfl
      all_goals exact cueToLane_secureView _ _ (countTaken s)

theorem writeCompletes_secureView (w : WriteInFlight) (ok : Bool) (s : State) :
    secureView (writeCompletes w ok s) = secureView s := by
  unfold writeCompletes; dsimp only; split
  · exact cueIntake_secureView _ _ (sendUp _ (dropWrite w.txn s))
  · rfl

/-! ### The show -/

theorem showLoaded_secureView (w : ShowWrite) (s : State) : secureView (showLoaded w s) = secureView s := by
  unfold showLoaded; dsimp only; split <;> rfl

theorem primeBlocks_secureView (s : State) : secureView (primeBlocks s) = secureView s := by rw [primeBlocks_eq]; rfl

theorem previewPrimed_secureView (s : State) : secureView (previewPrimed s) = secureView s :=
  primeBlocks_secureView (primeCtl .preview 0 s)

theorem showStarted_secureView (s : State) : secureView (showStarted s) = secureView s :=
  (activateLanes_secureView _ _ _).trans (clockLeaves_secureView _)

theorem showResumed_secureView (s : State) : secureView (showResumed s) = secureView s := clockLeaves_secureView _

/-! ### The Count Store -/

theorem loadRam_secureView (s : State) : secureView (loadRam s) = secureView s := by rw [loadRam_eq]; rfl

theorem storeCompletes_secureView (w : StoreWrite) (s : State) : secureView (storeCompletes w s) = secureView s := by
  unfold storeCompletes afterWrite; split
  · unfold reloadIfDue; split
    · exact loadRam_secureView _
    · rfl
  · rfl

theorem storeFails_secureView (w : StoreWrite) (s : State) : secureView (storeFails w s) = secureView s := by
  have first : secureView (raiseFault s.sound.ramp .storeFail (failedStore w s)) = secureView s := raiseFault_secureView _ _ _
  unfold storeFails; dsimp only; split
  · exact (raiseFault_secureView _ _ _).trans first
  · exact first

theorem licenceDeleted_secureView (index : Fin 8) (s : State) : secureView (licenceDeleted index s) = secureView s := by
  unfold licenceDeleted; split <;> rfl

/-! ### The Supervisor -/

theorem clearKinds_secureView (mask : BitVec 16) (kinds : List FaultKind) (s : State) :
    secureView (kinds.foldl (clearKind mask) s) = secureView s := by
  induction kinds generalizing s with
  | nil => rfl
  | cons k kinds ih =>
    have one : secureView (clearKind mask s k) = secureView s := by
      unfold clearKind; split
      · cases k <;> rfl
      · rfl
    exact (ih _).trans one

theorem faultsCleared_secureView (mask : BitVec 16) (s : State) : secureView (faultsCleared mask s) = secureView s := by
  have cleared := clearKinds_secureView mask allKinds s
  unfold faultsCleared; dsimp only; split
  · exact (outputReturned_secureView _ _).trans cleared
  · exact cleared

theorem watchdogFound_secureView (s : State) : secureView (watchdogFound s) = secureView s := by
  unfold watchdogFound; split
  · exact withdraw_secureView _ s
  · rfl

theorem feed_secureView (s : State) : secureView (feed s) = secureView s := by
  unfold feed; split
  · exact watchdogFound_secureView s
  · rfl

theorem writeFurther_secureView (k : FaultKind) (w : PolicyWrite) (s : State) :
    secureView (writeFurther k w s) = secureView s := by
  cases k with
  | watchdog =>
    show secureView (watchdogWritten _ _ s) = _
    unfold watchdogWritten; split
    · rfl
    · exact watchdogFound_secureView s
  | _ => rfl

end Sys2Proof.Machine
end

section
/-! SUPPORT. Proofs/SecureSteps.lean: every step keeps the Secure Clock's law: the tick, the trims and SET TIME, the key slots'
changes, the resets, and all the commands together (R59, R63, R65 to R69). -/

namespace Sys2Proof.Machine

/-! ### The Secure Clock by itself -/

/-- The law of the Secure Clock without the key slots (R65, R67 to R69). -/
structure SecureClockOk (c : SecureClock) : Prop where
  time : c.time ≤ 4294967295
  sum : -360 ≤ c.trimSum ∧ c.trimSum ≤ 360
  elapsed : c.elapsed < 31536000
  closed : c.yearOpen = false → c.elapsed = 0 ∧ c.trimSum = 0
  invalid : c.valid = false → c.time = 0 ∧ c.yearOpen = false

theorem secureOk_iff (s : State) :
    SecureOk s ↔ SecureClockOk s.secure ∧ (s.secure.valid = false → ∀ i : Fin 16, s.keys[i] = .empty) := by
  constructor
  · rintro ⟨time, sum, elapsed, closed, invalid⟩
    exact ⟨⟨time, sum, elapsed, closed, fun v => ⟨(invalid v).1, (invalid v).2.1⟩⟩, fun v => (invalid v).2.2⟩
  · rintro ⟨⟨time, sum, elapsed, closed, invalid⟩, empty⟩
    exact ⟨time, sum, elapsed, closed, fun v => ⟨(invalid v).1, (invalid v).2, empty v⟩⟩

/-- A clock whose trim year is CLOSED, with nothing elapsed and no trim. -/
theorem secureClockOk_of_closed {c : SecureClock} (time : c.time ≤ 4294967295) (invalid : c.valid = false → c.time = 0)
    (closed : c.yearOpen = false ∧ c.elapsed = 0 ∧ c.trimSum = 0) : SecureClockOk c := by
  obtain ⟨year, elapsed, sum⟩ := closed
  exact ⟨time, by omega, by omega, fun _ => ⟨elapsed, sum⟩, fun v => ⟨invalid v, year⟩⟩

theorem closeYear_clockOk {c : SecureClock} (h : SecureClockOk c) : SecureClockOk (closeYear c) :=
  secureClockOk_of_closed h.time (fun v => (h.invalid v).1) ⟨rfl, rfl, rfl⟩

/-- The trim year at a tick: it closes at its last (R69). -/
theorem yearTick_clockOk {c : SecureClock} (h : SecureClockOk c) : SecureClockOk (yearTick c) := by
  unfold yearTick; split
  · next opened =>
    split
    · exact closeYear_clockOk h
    · next before => exact { h with elapsed := Nat.lt_of_not_le before, closed := fun c => nomatch opened.symm.trans c }
  · exact h

theorem secureTicked_clockOk {c : SecureClock} (h : SecureClockOk c) : SecureClockOk (secureTicked c) := by
  unfold secureTicked; split
  · next valid =>
    exact yearTick_clockOk { h with time := Nat.min_le_right _ _, invalid := fun v => nomatch valid.symm.trans v }
  · exact h

theorem yearTick_time_valid (c : SecureClock) : (yearTick c).time = c.time ∧ (yearTick c).valid = c.valid := by
  unfold yearTick; repeat' split
  all_goals exact ⟨rfl, rfl⟩

theorem secureTicked_valid (c : SecureClock) : (secureTicked c).valid = c.valid := by
  unfold secureTicked; split
  · exact (yearTick_time_valid _).2
  · rfl

/-- The part of a delta that fits keeps the time a time, and the trim sum within 360 seconds (R68). -/
theorem appliedDelta_fits {c : SecureClock} (time : c.time ≤ 4294967295) (d : Int) :
    (0 ≤ (c.time : Int) + appliedDelta c d ∧ (c.time : Int) + appliedDelta c d ≤ 4294967295) ∧
      (-360 ≤ c.trimSum → c.trimSum ≤ 360 → -360 ≤ c.trimSum + appliedDelta c d ∧ c.trimSum + appliedDelta c d ≤ 360) := by
  unfold appliedDelta clampInt Config.max32
  omega

/-- The trim year opened: a CLOSED one begins with nothing elapsed and no trim (R68). -/
theorem openYear_eq (c : SecureClock) : openYear c = { c with
    yearOpen := true
    elapsed := if c.yearOpen then c.elapsed else 0
    trimSum := if c.yearOpen then c.trimSum else 0 } := by
  unfold openYear
  by_cases opened : c.yearOpen = true
  · simp only [opened, if_true]; cases c; cases opened; rfl
  · simp only [opened]; rfl

/-- A trim is made while VALID, in an open year (R68). -/
theorem trimmed_clockOk {c : SecureClock} (h : SecureClockOk c) (valid : c.valid = true) (d : Int) :
    SecureClockOk (trimmed (openYear c) (appliedDelta (openYear c) d)) := by
  have opened : (openYear c).elapsed < 31536000 ∧ -360 ≤ (openYear c).trimSum ∧ (openYear c).trimSum ≤ 360 := by
    obtain ⟨-, sum, elapsed, -, -⟩ := h
    rw [openYear_eq]; dsimp only; split
    · exact ⟨elapsed, sum⟩
    · decide
  have year : (openYear c).yearOpen = true ∧ (openYear c).valid = true := by rw [openYear_eq]; exact ⟨rfl, valid⟩
  obtain ⟨time, sum⟩ := appliedDelta_fits (c := openYear c) (by rw [openYear_eq]; exact h.time) d
  refine ⟨?_, sum opened.2.1 opened.2.2, opened.1, fun closed => (nomatch year.1.symm.trans closed),
    fun invalid => (nomatch year.2.symm.trans invalid)⟩
  show Int.toNat _ ≤ _
  omega

/-! ### The law and a change of the state -/

/-- A change of the state keeps the law. -/
def SecureKept (s t : State) : Prop := SecureOk s → SecureOk t

theorem SecureKept.trans {s t u : State} (h : SecureKept s t) (g : SecureKept t u) : SecureKept s u := g ∘ h

/-- A change of the key slots that leaves EMPTY, while TIME_INVALID, every slot that is EMPTY. -/
theorem SecureKept.of_slots {s t : State} (secure : t.secure = s.secure)
    (slots : s.secure.valid = false → ∀ i : Fin 16, s.keys[i] = .empty → t.keys[i] = .empty) : SecureKept s t := by
  unfold SecureKept
  rw [secureOk_iff, secureOk_iff, secure]
  exact fun ⟨clock, empty⟩ => ⟨clock, fun v i => slots v i (empty v i)⟩

theorem SecureKept.of_view {s t : State} (e : secureView t = secureView s) : SecureKept s t :=
  .of_slots (congrArg Prod.snd e) fun _ i empty => (congrArg (fun x => x.1[i]) e).trans empty

/-- A change of the Secure Clock that keeps its law, and does not take VALID away. -/
theorem SecureKept.of_clock {s t : State} (keys : t.keys = s.keys) (valid : t.secure.valid = false → s.secure.valid = false)
    (clock : SecureClockOk s.secure → SecureClockOk t.secure) : SecureKept s t := by
  unfold SecureKept
  rw [secureOk_iff, secureOk_iff, keys]
  exact fun ⟨was, empty⟩ => ⟨clock was, fun v => empty (valid v)⟩

/-! ### The key slots -/

theorem purged_secureKept (index : Fin 16) (s : State) : SecureKept s (s.setKeys (vput s.keys index .empty)) := by
  refine .of_slots rfl fun _ i empty => ?_
  rw [setKeys_keys, vput_get]; split
  · rfl
  · exact empty

/-- A key is loaded, and expires, while VALID alone (R61, R63). -/
theorem setKeys_secureKept {s : State} (valid : s.secure.valid = true) (keys : Vector KeySlot 16) : SecureKept s (s.setKeys keys) :=
  .of_slots rfl fun invalid => nomatch valid.symm.trans invalid

theorem expireKeys_secureKept (s : State) : SecureKept s (expireKeys s) := by
  unfold expireKeys; split
  · next valid => exact setKeys_secureKept valid _
  · exact id

/-- A full show takes and releases slots, and leaves an EMPTY one EMPTY (R44, R53). -/
theorem mapNamedKeys_secureKept {s t : State} {f : KeySlot → KeySlot} (empty : f .empty = .empty) (r : ShowRecord)
    (e : secureView t = (mapNamedKeys f r s.keys, s.secure)) : SecureKept s t := by
  refine .of_slots (congrArg Prod.snd e) fun _ i was => ?_
  have keys : t.keys = mapNamedKeys f r s.keys := congrArg Prod.fst e
  rw [keys, mapNamedKeys, Fin.getElem_fin, vofFn_getElem]; split
  · rw [was, empty]
  · exact was

theorem showPrimed_secureKept (r : ShowRecord) (s : State) : SecureKept s (showPrimed r s) := by
  refine mapNamedKeys_secureKept (f := takeSlot) rfl r ?_
  rw [showPrimed, primeBlocks_eq]; rfl

theorem showStopped_secureKept (s : State) : SecureKept s (showStopped s) := by
  have released : SecureKept s (releaseKeys s) := by
    unfold releaseKeys; split
    · split
      · exact mapNamedKeys_secureKept (f := releaseSlot) rfl _ rfl
      · exact id
    · exact id
  refine released.trans (.of_view ?_)
  unfold showStopped; dsimp only
  rw [stopBlocks_eq, withdrawShow_eq]; rfl

/-! ### Secure time -/

theorem ticked_secureKept (s : State) : SecureKept s ((quiet s).setSecure (secureTicked s.secure)) :=
  .of_clock rfl (fun invalid => (secureTicked_valid s.secure).symm.trans invalid) secureTicked_clockOk

theorem timeTrimmed_secureKept {s : State} (valid : s.secure.valid = true) (d : BitVec 16) :
    SecureKept s (timeTrimmed d s) := by
  have trim : SecureKept s (s.setSecure (trimmed (openYear s.secure) (appliedDelta (openYear s.secure) d.toInt))) :=
    .of_clock rfl (fun invalid => by rw [setSecure_secure, trimmed, openYear_eq] at invalid; exact invalid)
      fun clock => trimmed_clockOk clock valid _
  exact (trim.trans (expireKeys_secureKept _)).trans (.of_view rfl)

/-! ### Resets -/

/-- With every key slot EMPTY the law is the Secure Clock's own. -/
theorem secureOk_of_empty {s : State} (keys : s.keys = Vector.replicate 16 .empty) (clock : SecureClockOk s.secure) : SecureOk s :=
  (secureOk_iff s).mpr ⟨clock, fun _ i => by rw [keys]; exact Vector.getElem_replicate _⟩

theorem boothResetAll_secureKept (s : State) : SecureKept s (boothResetAll s) := by
  rw [boothResetAll_eq]
  exact fun ok => secureOk_of_empty rfl ((secureOk_iff s).mp ok).1

theorem powerBlocks_secureKept (supplyHeld readable : Bool) (straps : BitVec 2) (s : State) :
    SecureKept s (powerBlocks supplyHeld readable straps s) := by
  refine fun ok => secureOk_of_empty rfl ?_
  unfold powerBlocks; dsimp only; split
  · exact ((secureOk_iff s).mp ok).1
  · exact secureClockOk_of_closed (by decide) (fun _ => rfl) ⟨rfl, rfl, rfl⟩

/-! ### Events and requests -/

theorem quiet_secureKept (s : State) : SecureKept s (quiet s) := .of_view rfl

theorem whenOn_secureKept {s : State} {f : State → State} (h : SecureKept s (f (quiet s))) : SecureKept s (whenOn s f) :=
  whenOn_keeps (quiet_secureKept s) h

theorem onLink_secureKept {n : Nat} {s : State} {f : State → State} (h : SecureKept s (f (quiet s))) :
    SecureKept s (onLink n s f) := onLink_keeps (.of_view rfl) h fun _ k => k.trans (.of_view rfl)

/-- A request that, carried out, keeps the law. -/
theorem request_secureKept {n : Nat} {s : State} {checks : State → List Check} {accept : State → State}
    (h : firstFailure (checks (quiet s)) = none → SecureKept s (accept (quiet s))) :
    SecureKept s (onLink n s fun s => checked (checks s) accept s) :=
  onLink_secureKept (checked_keeps h fun _ _ => .of_view rfl)

/-- An event whose effect comes only when it is due leaves the view that its effect leaves. -/
theorem due_secureKept {s : State} {due : State → Bool} {f : State → State} (h : secureView (f (quiet s)) = secureView s) :
    SecureKept s (whenOn s fun s => if due s then f s else s) := by
  apply whenOn_secureKept; split
  · exact .of_view h
  · exact quiet_secureKept s

/-! ### Every command -/

/-- Every command has a next state, which keeps the law. -/
theorem exec_secureKept (c : Instr) (s : State) : ∃ t, exec c s = .next t ∧ SecureKept s t := by
  cases c with
  | lineRead addr who => exact ⟨_, rfl, whenOn_secureKept (.of_view (readArrives_secureView _ _ _ (quiet s)))⟩
  | lineWrite addr who data enables =>
    exact ⟨_, rfl, whenOn_secureKept (.of_view (writeArrives_secureView _ _ _ _ _ (quiet s)))⟩
  | readReturn txn ans =>
    refine ⟨_, rfl, whenOn_secureKept ?_⟩; split
    · exact .of_view (readReturns_secureView _ _ (quiet s))
    · exact quiet_secureKept s
  | sideReadReturn txn lane ans =>
    refine ⟨_, rfl, whenOn_secureKept ?_⟩; split
    · exact .of_view (joinDisplay_secureView _ (quiet s))
    · exact quiet_secureKept s
  | writeCompletion txn ok =>
    refine ⟨_, rfl, whenOn_secureKept ?_⟩; split
    · exact .of_view (writeCompletes_secureView _ _ (quiet s))
    · exact quiet_secureKept s
  | fsyncInEdge =>
    refine ⟨_, rfl, whenOn_secureKept ?_⟩; split
    · exact quiet_secureKept s
    · exact .of_view (clockEdge_secureView (quiet s))
  | windowExpiry => exact ⟨_, rfl, due_secureKept (miss_secureView (quiet s))⟩
  | anchorTimeout => exact ⟨_, rfl, due_secureKept (raiseCondition_secureView _ _ _)⟩
  | internalExpiry => exact ⟨_, rfl, due_secureKept (advance_secureView _ _)⟩
  | loadShow w => exact ⟨_, rfl, request_secureKept fun _ => .of_view (showLoaded_secureView w (quiet s))⟩
  | prime =>
    refine ⟨_, rfl, onLink_secureKept ?_⟩; split
    · exact .of_view rfl
    · exact checked_keeps (fun _ => (quiet_secureKept s).trans (showPrimed_secureKept _ _)) fun _ _ => .of_view rfl
  | primePreview => exact ⟨_, rfl, request_secureKept fun _ => .of_view (previewPrimed_secureView (quiet s))⟩
  | start => exact ⟨_, rfl, request_secureKept fun _ => .of_view (showStarted_secureView (quiet s))⟩
  | resume => exact ⟨_, rfl, request_secureKept fun _ => .of_view (showResumed_secureView (quiet s))⟩
  | stop => exact ⟨_, rfl, request_secureKept fun _ => (quiet_secureKept s).trans (showStopped_secureKept _)⟩
  | loadKey index blob check =>
    refine ⟨_, rfl, request_secureKept fun passed => ?_⟩
    have valid : (quiet s).secure.valid = true :=
      firstFailure_none.mp passed _ (List.mem_cons_of_mem _ List.mem_cons_self)
    exact ((quiet_secureKept s).trans (setKeys_secureKept valid _)).trans (.of_view rfl)
  | purgeKey index =>
    exact ⟨_, rfl, request_secureKept fun _ =>
      ((quiet_secureKept s).trans (purged_secureKept index _)).trans (.of_view rfl)⟩
  | keyExpiry index =>
    refine ⟨_, rfl, whenOn_secureKept ?_⟩; split
    · next valid => exact (quiet_secureKept s).trans (setKeys_secureKept valid _)
    · exact quiet_secureKept s
  | secureTick =>
    refine ⟨_, rfl, ?_⟩; split
    · dsimp only; split
      · exact (ticked_secureKept s).trans (expireKeys_secureKept _)
      · exact ticked_secureKept s
    · exact quiet_secureKept s
  | trimYearClose =>
    refine ⟨_, rfl, ?_⟩; split
    · exact .of_clock rfl id closeYear_clockOk
    · exact quiet_secureKept s
  | setTime t =>
    exact ⟨_, rfl, request_secureKept fun _ => SecureKept.of_clock rfl nofun fun _ =>
      secureClockOk_of_closed (by have := t.isLt; show t.toNat ≤ _; omega) nofun ⟨rfl, rfl, rfl⟩⟩
  | trimTime d =>
    refine ⟨_, rfl, request_secureKept fun passed => ?_⟩
    have valid : (quiet s).secure.valid = true := firstFailure_none.mp passed _ List.mem_cons_self
    exact (quiet_secureKept s).trans (timeTrimmed_secureKept valid d)
  | deleteLicence index => exact ⟨_, rfl, request_secureKept fun _ => .of_view (licenceDeleted_secureView index (quiet s))⟩
  | storeWriteCompletion =>
    refine ⟨_, rfl, whenOn_secureKept ?_⟩; split
    · exact .of_view (storeCompletes_secureView _ (quiet s))
    all_goals exact quiet_secureKept s
  | storeWriteFailure =>
    refine ⟨_, rfl, whenOn_secureKept ?_⟩; split
    · exact .of_view (storeFails_secureView _ (quiet s))
    all_goals exact quiet_secureKept s
  | clearFaults mask => exact ⟨_, rfl, onLink_secureKept (.of_view (faultsCleared_secureView mask (quiet s)))⟩
  | tickle => exact ⟨_, rfl, onLink_secureKept (.of_view (feed_secureView (quiet s)))⟩
  | wdTick =>
    refine ⟨_, rfl, whenOn_secureKept ?_⟩; split
    · exact quiet_secureKept s
    · exact .of_view (feed_secureView _)
  | watchdogExpiry => exact ⟨_, rfl, due_secureKept (raiseCondition_secureView _ _ _)⟩
  | reset => exact ⟨_, rfl, onLink_secureKept (((quiet_secureKept s).trans (boothResetAll_secureKept _)).trans (.of_view rfl))⟩
  | boothReset midTransfer =>
    refine ⟨_, rfl, ?_⟩; dsimp only; split
    · have fallen : SecureKept s ((quiet s).setPower { s.power with brstLow := true }) := .of_view rfl
      exact (fallen.trans (boothResetAll_secureKept _)).trans (.of_view rfl)
    · exact .of_view rfl
  | powerOnReset supplyHeld readable straps =>
    refine ⟨_, rfl, (powerBlocks_secureKept supplyHeld readable straps s).trans ?_⟩; dsimp only; split
    · exact .of_view (loadRam_secureView _)
    · exact id
  | writeLowMark lane mark =>
    refine ⟨_, rfl, request_secureKept fun _ => ?_⟩; cases lane <;> exact .of_view rfl
  | writePolicy kind w =>
    exact ⟨_, rfl, request_secureKept fun _ => .of_view (writeFurther_secureView kind w (putPolicy kind _ (quiet s)))⟩
  | unrecognisedPacket op table index data =>
    refine ⟨_, rfl, onLink_secureKept ?_⟩; split
    · unfold dispatchRefused; split <;> exact .of_view rfl
    · exact quiet_secureKept s
  | hold | unload | regionRecord index w | loadLicence index blob check | popLog seq | setScreen id | writeClock window lossLimit =>
    exact ⟨_, rfl, request_secureKept fun _ => .of_view rfl⟩
  | setMute mask | laneEnable bits | ackEvents mask | writeEvents enables selects | readTransfer count =>
    exact ⟨_, rfl, onLink_secureKept (.of_view rfl)⟩
  | writeFilter index w | writeDefaultAction action | readRecord table index | badCrc packet | badLengthTruncated staged =>
    refine ⟨_, rfl, onLink_secureKept ?_⟩; split <;> exact .of_view rfl
  | brstNRelease | lossOfPower backupFails => exact ⟨_, rfl, .of_view rfl⟩

theorem idle_secureKept (s : State) : SecureKept s (idle s) := by
  unfold idle; split <;> exact .of_view rfl

/-- Settles O57: a step is an idle microsecond or a command, and each keeps the law. -/
theorem stepsKeepTheSecureClock : Obligations.StepsKeepTheSecureClock := by
  unfold Obligations.StepsKeepTheSecureClock
  intro s t h
  unfold step at h
  split at h
  · exact Host.Outcome.next.inj h ▸ idle_secureKept s
  · next c rest _ =>
    obtain ⟨u, hu, kept⟩ := exec_secureKept c (s.setPending rest)
    exact Host.Outcome.next.inj (hu.symm.trans h) ▸ SecureKept.trans (.of_view rfl) kept

end Sys2Proof.Machine
end

section
/-! SUPPORT. Proofs/KeyRequests.lean: LOAD KEY and PURGE KEY, and PRIME of a record that names an EMPTY slot (R61, R62). -/

namespace Sys2Proof.Machine

/-! ### LOAD KEY -/

theorem keyStateCode_empty (x : KeySlot) : keyStateCode x = 0#8 ↔ x = .empty := by
  cases x <;> simp [keyStateCode]

theorem keyStateCode_expired (x : KeySlot) : keyStateCode x = 4#8 ↔ ∃ f, x = .expired f := by
  cases x <;> simp [keyStateCode]

theorem slotFree_eq (x : KeySlot) : slotFree x = (decide (keyStateCode x = 0#8) || decide (keyStateCode x = 4#8)) := by
  cases x <;> rfl

/-- The rows of R61, of what a blob unwraps to. -/
def keyLoadRows (i : Fin 16) (p : PlainKey) (check : BitVec 32) (s : State) : List Row :=
  [⟨keyStateCode s.keys[i] = 0#8 || keyStateCode s.keys[i] = 4#8, .refusedState, 1⟩, ⟨s.secure.valid, .refusedState, 2⟩,
   ⟨p.check = check, .keyWrap, 3⟩, ⟨p.kind.isSome, .refusedValue, 4⟩,
   ⟨p.notBefore.toNat < p.notAfter.toNat, .refusedValue, 5⟩, ⟨s.secure.time < p.notAfter.toNat, .refusedValue, 6⟩]

theorem keyChecks_agree (i : Fin 16) (p : PlainKey) (check : BitVec 32) (s : State) :
    List.Forall₂ Agree (keyChecks i p check s) (keyLoadRows i p check s) :=
  .cons ⟨slotFree_eq _, rfl, rfl⟩ (.cons ⟨rfl, rfl, rfl⟩ (.cons ⟨rfl, rfl, rfl⟩ (.cons ⟨rfl, rfl, rfl⟩ (.cons ⟨rfl, rfl, rfl⟩
    (.cons ⟨rfl, rfl, rfl⟩ .nil)))))

/-- Settles O32: LOAD KEY is judged by the rows of R61, on whatever its blob unwraps to. -/
theorem loadKeyFollowsItsChecks : Obligations.LoadKeyFollowsItsChecks := by
  unfold Obligations.LoadKeyFollowsItsChecks
  refine ⟨fun i blob check s linked => ?_, fun x => ⟨keyStateCode_empty x, keyStateCode_expired x⟩⟩
  exact request_judged linked (checked_eq_judged (keyChecks_agree i (Config.unwrapKey blob) check (quiet s)) rfl)

/-! ### PURGE KEY -/

/-- The state after an accepted PURGE KEY that leaves such key slots (R62). -/
def purgedTo (keys : Vector KeySlot 16) (s : State) : State :=
  { s with keys := keys, link := answered s.link .ok 0, out := { acked := 6 } }

/-- A request whose one check passes is carried out, its bytes acknowledged (R157). -/
theorem request_passes {s : State} {n : Nat} {check : State → Check} {accept : State → State} (linked : Linked s)
    (passes : (check (quiet s)).pass = true) :
    onLink n s (fun s => checked [check s] accept s) = acknowledging n (accept (quiet s)) := by
  rw [onLink_linked linked, checked_cons, if_pos passes, checked_nil]

theorem exec_purgeKey_free {s : State} {i : Fin 16} (linked : Linked s) (free : slotPurgeable s.keys[i] = true) :
    exec (.purgeKey i) s = .next (purgedTo (vput s.keys i .empty) s) :=
  congrArg Host.Outcome.next (request_passes linked free)

theorem exec_purgeKey_held {s : State} {i : Fin 16} (linked : Linked s) (held : slotPurgeable s.keys[i] = false) :
    exec (.purgeKey i) s = .next (acknowledging 6 (refusedAs s .refusedState 1)) :=
  request_refused linked (checked_first_fails held)

/-- An index above 15 is none of PURGE KEY's (R62, R158). -/
theorem linkRefusal_purgeKey {index : Byte} (h : 15 < index.toNat) (data : List Byte) :
    linkRefusal 3#8 12#8 index data = some .badIndex := by
  show (if 16 ≤ index.toNat then _ else _) = _
  exact if_pos h

/-! ### PRIME of a record that names an EMPTY slot -/

/-- A request with a check that fails is refused, with no OK among the codes of its checks. -/
theorem checked_fails {s : State} {checks : List Check} {accept : State → State} {c : Check} (member : c ∈ checks)
    (fails : c.pass = false) (codes : ∀ c ∈ checks, c.result ≠ .ok) :
    ∃ code d, code ≠ .ok ∧ checked checks accept (quiet s) = refusedAs s code d := by
  induction checks with
  | nil => exact nomatch member
  | cons first rest ih =>
    rw [checked_cons]
    obtain ⟨code, others⟩ := List.forall_mem_cons.mp codes
    cases passes : first.pass with
    | false => exact ⟨_, _, code, by rw [if_neg Bool.false_ne_true, answer_quiet]⟩
    | true =>
      have later : c ∈ rest := by
        rcases List.mem_cons.mp member with rfl | later
        · exact nomatch passes.symm.trans fails
        · exact later
      rw [if_pos rfl]; exact ih later others

theorem reelChecks_codes (r : ShowRecord) (s : State) (reels : List Reel) (i : Nat) :
    ∀ c ∈ allReelChecks r s i reels, c.result ≠ .ok := by
  induction reels generalizing i with
  | nil => exact nofun
  | cons e es ih =>
    rw [allReelChecks, List.forall_mem_append]
    exact ⟨by simp [reelChecks], ih (i + 1)⟩

theorem primeChecks_codes (r : ShowRecord) (s : State) : ∀ c ∈ primeChecks r s, c.result ≠ .ok := by
  simp [primeChecks, stateCheck]

/-- PRIME with a reel of whose checks one fails is refused. -/
theorem exec_prime_reel_fails {s : State} {r : ShowRecord} {e : Reel} {c : Check} (linked : Linked s)
    (record : s.ctl.record = some r) (reel : e ∈ r.reels) (member : ∀ j, c ∈ reelChecks r (quiet s) j e)
    (fails : c.pass = false) :
    ∃ code d, code ≠ .ok ∧ exec .prime s = .next (acknowledging 6 (refusedAs s code d)) := by
  obtain ⟨j, sub⟩ := reelChecks_subset (r := r) (s := quiet s) reel 0
  obtain ⟨code, d, refusal, e⟩ := checked_fails (s := s) (accept := showPrimed r)
    (List.mem_append_right (primeChecks r (quiet s)) (sub _ (member j))) fails
    (List.forall_mem_append.mpr ⟨primeChecks_codes r _, reelChecks_codes r _ _ _⟩)
  exact ⟨code, d, refusal, by rw [exec_prime linked record, e]⟩

/-- Settles O33: a slot is purged by its state, and an EMPTY slot fails the check of its kind. -/
theorem purgeKeyEmptiesAFreeSlot : Obligations.PurgeKeyEmptiesAFreeSlot := by
  unfold Obligations.PurgeKeyEmptiesAFreeSlot
  refine ⟨fun i s linked => ⟨fun f m h => ?_, fun f h => ?_, fun h => ?_, fun f m h => ?_, fun f m g h => ?_⟩,
    fun index data h => linkRefusal_purgeKey h data, fun s r e linked record reel => ⟨fun h => ?_, fun h => ?_⟩⟩
  iterate 2 exact exec_purgeKey_free linked (by rw [h]; rfl)
  · have unchanged : vput s.keys i .empty = s.keys := by rw [← h]; exact vput_same s.keys i
    rw [exec_purgeKey_free linked (by rw [h]; rfl), unchanged]; rfl
  iterate 2 exact exec_purgeKey_held linked (by rw [h]; rfl)
  · have kind : (slotKind s.keys[e.pictureKey] == some .picture) = false := by rw [h]; rfl
    exact ⟨by rw [h]; exact nofun, exec_prime_reel_fails (c := ⟨_, .refusedValue, 14⟩) linked record reel
      (fun j => by simp [reelChecks]) kind⟩
  · have kind : (slotKind s.keys[e.soundKey] == some .sound) = false := by rw [h]; rfl
    exact ⟨by rw [h]; exact nofun, exec_prime_reel_fails (c := ⟨_, .refusedValue, 17⟩) linked record reel
      (fun j => by simp [reelChecks]) kind⟩

end Sys2Proof.Machine
end

section
/-! SUPPORT. Proofs/SecureTime.lean: the tick, the expiries and the end of the trim year, SET TIME and TRIM TIME, each as the state it
leaves (R63, R65 to R69). -/

namespace Sys2Proof.Machine

/-! ### The tick and the expiries -/

/-- The trim year at a tick, closed at the tick that fills it (R69). -/
theorem yearTick_eq (c : SecureClock) : yearTick c =
    if c.yearOpen = true then
      if c.elapsed + 1 < 31536000 then { c with elapsed := c.elapsed + 1 }
      else { c with yearOpen := false, elapsed := 0, trimSum := 0 }
    else c := by
  unfold yearTick Config.trimYear
  congr 1
  by_cases full : 31536000 ≤ c.elapsed + 1
  · rw [if_pos full, if_neg (Nat.not_lt.mpr full)]; rfl
  · rw [if_neg full, if_pos (Nat.lt_of_not_le full)]

theorem secureTicked_valid_eq {c : SecureClock} (h : c.valid = true) :
    secureTicked c = yearTick { c with time := Nat.min (c.time + 1) 4294967295 } := if_pos h

theorem secureTicked_invalid {c : SecureClock} (h : c.valid = false) : secureTicked c = c := if_neg (by simp [h])

theorem expireKeys_valid {s : State} (h : s.secure.valid = true) : expireKeys s =
    { s with keys := Vector.ofFn fun i : Fin 16 => expireSlot s.secure.time (showReel s) s.keys[i] } := by
  rw [expireKeys, if_pos h, vmap_eq_ofFn]; rfl

theorem expireKeys_invalid {s : State} (h : s.secure.valid = false) : expireKeys s = s := if_neg (by simp [h])

theorem exec_secureTick_on {s : State} (on : s.power.on = true) :
    exec .secureTick s = .next (expireKeys ((quiet s).setSecure (secureTicked s.secure))) := by
  show Host.Outcome.next (if backupAlive s = true then if s.power.on = true then _ else _ else _) = _
  rw [if_pos (by simp [backupAlive, on]), if_pos on]

theorem exec_secureTick_valid {s : State} (on : s.power.on = true) (valid : s.secure.valid = true) :
    exec .secureTick s = .next { s with
      secure := secureTicked s.secure
      keys := Vector.ofFn fun i : Fin 16 => expireSlot (Nat.min (s.secure.time + 1) 4294967295) (showReel s) s.keys[i]
      out := {} } := by
  have time : (secureTicked s.secure).time = Nat.min (s.secure.time + 1) 4294967295 := by
    rw [secureTicked_valid_eq valid]; exact (yearTick_time_valid _).1
  rw [exec_secureTick_on on, expireKeys_valid ((secureTicked_valid _).trans valid), setSecure_secure, time]; rfl

theorem exec_secureTick_invalid {s : State} (on : s.power.on = true) (invalid : s.secure.valid = false) :
    exec .secureTick s = .next { s with out := {} } := by
  rw [exec_secureTick_on on, secureTicked_invalid invalid,
    expireKeys_invalid (s := (quiet s).setSecure s.secure) invalid]; rfl

/-- Without the main supply the backup domain counts, and no slot expires (R66). -/
theorem exec_secureTick_backup {s : State} (off : s.power.on = false) (held : s.power.backupHeld = true) :
    exec .secureTick s = .next { s with secure := secureTicked s.secure, out := {} } := by
  show Host.Outcome.next (if backupAlive s = true then if s.power.on = true then _ else _ else _) = _
  rw [if_pos (by simp [backupAlive, held]), if_neg (by simp [off])]; rfl

theorem exec_keyExpiry_valid {s : State} (on : s.power.on = true) (valid : s.secure.valid = true) (i : Fin 16) :
    exec (.keyExpiry i) s = .next { s with
      keys := vput s.keys i (expireSlot s.secure.time (showReel s) s.keys[i]), out := {} } := by
  show Host.Outcome.next (whenOn s _) = _
  rw [whenOn_on on, quiet_secure, if_pos valid]; rfl

theorem exec_keyExpiry_invalid {s : State} (on : s.power.on = true) (invalid : s.secure.valid = false) (i : Fin 16) :
    exec (.keyExpiry i) s = .next { s with out := {} } := by
  show Host.Outcome.next (whenOn s _) = _
  rw [whenOn_on on, quiet_secure, if_neg (by simp [invalid])]; rfl

/-! ### The end of the trim year -/

theorem exec_trimYearClose_full {s : State} (on : s.power.on = true) (opened : s.secure.yearOpen = true)
    (full : 31536000 ≤ s.secure.elapsed) : exec .trimYearClose s = .next { s with
      secure := { s.secure with yearOpen := false, elapsed := 0, trimSum := 0 }, out := {} } := by
  have due : (backupAlive s && s.secure.yearOpen && decide (Config.trimYear ≤ s.secure.elapsed)) = true := by
    simp [backupAlive, on, opened, Config.trimYear, full]
  show Host.Outcome.next (if _ then _ else _) = _
  rw [if_pos due]; rfl

theorem exec_trimYearClose_not_due {s : State} (early : s.secure.yearOpen = false ∨ s.secure.elapsed < 31536000) :
    exec .trimYearClose s = .next { s with out := {} } := by
  have undue : ¬ (backupAlive s && s.secure.yearOpen && decide (Config.trimYear ≤ s.secure.elapsed)) = true := by
    rcases early with closed | before
    · simp [closed]
    · simp [Config.trimYear, Nat.not_le.mpr before]
  show Host.Outcome.next (if _ then _ else _) = _
  rw [if_neg undue]; rfl

/-- Settles O34: the tick and its expiries, one slot's expiry, and the end of the trim year, with and without a valid time. -/
theorem secureTickCountsAndExpires : Obligations.SecureTickCountsAndExpires := by
  unfold Obligations.SecureTickCountsAndExpires
  refine ⟨fun s on => ?_, fun s off held => exec_secureTick_backup off held⟩
  intro expired year now
  have slot (now : Nat) (x : KeySlot) : expireSlot now (showReel s) x = expired now x := by cases x <;> rfl
  refine ⟨fun valid => ⟨?_, fun i => ?_⟩, fun invalid => ⟨exec_secureTick_invalid on invalid, exec_keyExpiry_invalid on invalid⟩,
    exec_trimYearClose_full on, exec_trimYearClose_not_due⟩
  · rw [exec_secureTick_valid on valid, secureTicked_valid_eq valid, yearTick_eq]
    simp only [slot]; rfl
  · rw [exec_keyExpiry_valid on valid, slot]

/-! ### SET TIME -/

theorem exec_setTime_invalid {s : State} (linked : Linked s) (invalid : s.secure.valid = false) (v : BitVec 32) :
    exec (.setTime v) s = .next { s with
      secure := { valid := true, time := v.toNat, yearOpen := false, elapsed := 0, trimSum := 0 }
      link := answered s.link .ok 0
      out := { acked := 10 } } := by
  have passes : (!(quiet s).secure.valid) = true := by simp [invalid]
  exact congrArg Host.Outcome.next (request_passes linked passes)

/-- Settles O35: SET TIME by its one check, the EMPTY slots of the law, and the first tick after it. -/
theorem setTimeIsTakenOnce : Obligations.SetTimeIsTakenOnce := by
  unfold Obligations.SetTimeIsTakenOnce
  refine fun v s linked => ⟨fun invalid => exec_setTime_invalid linked invalid v, fun valid => ?_,
    fun ok => ((secureOk_iff s).mp ok).2, fun t invalid accepted => ?_⟩
  · have fails : (!(quiet s).secure.valid) = false := by simp [valid]
    exact request_refused linked (checked_first_fails fails)
  · obtain rfl := Host.Outcome.next.inj ((exec_setTime_invalid linked invalid v).symm.trans accepted)
    exact ⟨_, exec_secureTick_valid linked.1 rfl, rfl, rfl⟩

/-! ### TRIM TIME -/

/-- The trim sum that a trim begins with: 0 in a year that it opens (R68). -/
theorem appliedDelta_eq (c : SecureClock) (d : Int) : appliedDelta (openYear c) d =
    let sum := if c.yearOpen then c.trimSum else 0
    max (-(c.time : Int)) (min (4294967295 - (c.time : Int)) (max (-360) (min 360 (sum + d)) - sum)) := by
  rw [openYear_eq]; unfold appliedDelta clampInt Config.max32
  dsimp only
  omega

theorem timeTrimmed_eq {s : State} (valid : s.secure.valid = true) (d : BitVec 16) :
    let a := appliedDelta (openYear s.secure) d.toInt
    let time := ((s.secure.time : Int) + a).toNat
    timeTrimmed d (quiet s) = { s with
      secure := { valid := true, time := time, yearOpen := true, elapsed := if s.secure.yearOpen then s.secure.elapsed else 0
                  trimSum := (if s.secure.yearOpen then s.secure.trimSum else 0) + a }
      keys := Vector.ofFn fun i : Fin 16 => expireSlot time (showReel s) s.keys[i]
      link := { answered s.link .ok 0 with delta := a }
      out := {} } := by
  have clock (a : Int) : trimmed (openYear s.secure) a =
      { valid := true, time := ((s.secure.time : Int) + a).toNat, yearOpen := true,
        elapsed := if s.secure.yearOpen then s.secure.elapsed else 0,
        trimSum := (if s.secure.yearOpen then s.secure.trimSum else 0) + a } := by
    rw [trimmed, openYear_eq, valid]
  intro a time
  show answerWith .ok 0 a (expireKeys ((quiet s).setSecure (trimmed (openYear s.secure) a))) = _
  rw [clock, expireKeys_valid rfl]; rfl

/-- Settles O36: the delta applied, its bounds, and the slots that the new time reaches. -/
theorem trimTimeIsBounded : Obligations.TrimTimeIsBounded := by
  unfold Obligations.TrimTimeIsBounded
  refine ⟨fun d s linked => ⟨fun invalid => request_refused linked (checked_first_fails invalid), fun valid bounded => ?_⟩,
    fun now grace x => by cases x <;> rfl⟩
  have time : (openYear s.secure).time = s.secure.time := by rw [openYear_eq]
  have sum : (openYear s.secure).trimSum = if s.secure.yearOpen then s.secure.trimSum else 0 := by rw [openYear_eq]
  have fits := appliedDelta_fits (time ▸ bounded) d.toInt
  rw [time, sum] at fits
  obtain ⟨⟨nonneg, -⟩, within⟩ := fits
  refine ⟨appliedDelta (openYear s.secure) d.toInt, acknowledging 8 (timeTrimmed d (quiet s)),
    congrArg Host.Outcome.next (request_passes linked valid), appliedDelta_eq _ _, ?_⟩
  rw [timeTrimmed_eq valid]
  refine ⟨rfl, Int.toNat_of_nonneg nonneg, fun low high => ?_⟩
  obtain ⟨least, most⟩ := within low high
  exact ⟨least, most, by omega, by omega⟩

end Sys2Proof.Machine
end

section
/-! SUPPORT. Proofs/ReadRecords.lean: which records there are, how long each is as read, and the bytes of a read transfer (R137, R157 to
R160, Table 11-1). -/

namespace Sys2Proof.Machine

/-! ### The records that there are (R137, R158) -/

/-- The index is beyond the table's, or beyond the records that the log holds. -/
def OutsideTable (s : State) (t : LinkTable) (index : Nat) : Prop :=
  tableIndexes t ≤ index ∨ (t = .log ∧ s.count.ram.log.length ≤ index)

theorem recordBytes_outside {s : State} {t : LinkTable} {index : Nat} (h : OutsideTable s t index) :
    recordBytes s t index = none := by
  unfold recordBytes; split
  · rfl
  · next inside =>
    obtain ⟨rfl, beyond⟩ := h.resolve_left inside
    simp [beyond]

theorem recordBytes_inside {s : State} {t : LinkTable} {index : Nat} (h : ¬ OutsideTable s t index) :
    ∃ bytes, recordBytes s t index = some bytes := by
  obtain ⟨inside, logged⟩ := not_or.mp h
  unfold recordBytes
  rw [if_neg inside]
  cases t
  case policy =>
    have small : index < 9 := Nat.lt_of_not_le inside
    have kind : ∃ k, faultKindOf index = some k := by interval_cases index <;> exact ⟨_, rfl⟩
    obtain ⟨k, hk⟩ := kind
    exact ⟨policyRecord s k, by rw [hk]; rfl⟩
  case log =>
    have held : index < s.count.ram.log.length := by simpa using logged
    exact ⟨logRecord s.count.ram.log[index], by rw [List.getElem?_eq_getElem held]; rfl⟩
  all_goals exact ⟨_, rfl⟩

/-! ### Lengths as read (Table 11-1) -/

theorem laid_length (fields : List (Nat × Nat)) : (laid fields).length = (fields.map (·.1)).sum := by
  simp [laid, List.length_flatMap]

/-- The length of a record as read (Table 11-1). -/
def readLength (s : State) (t : LinkTable) (index : Nat) : Nat :=
  match t with
  | .ident => 16 | .region => 32 | .key => 40 | .licence => 48
  | .showing => 16 + 8 * (s.ctl.record.map (·.reels.length)).getD 0
  | .filter => if index < 8 then 8 else if index = 8 then 24 else 48
  | .policy => 8 | .status => 200 | .log => 31 | .events => 4 | .clock => 64 | .link => 4

theorem laid_showFields_length (record : Option ShowRecord) :
    (laid (showFields record)).length = 16 + 8 * (record.map (·.reels.length)).getD 0 := by
  cases record with
  | none => rfl
  | some r =>
    rw [showFields, laid_append, laid_flatMap, List.length_append, List.length_flatMap]
    simp [laid_length, mul_comm]

theorem laid_filterFields_length (c : CueIntake) (index : Nat) :
    (laid (filterFields c index)).length = if index < 8 then 8 else if index = 8 then 24 else 48 := by
  rw [laid_length]; unfold filterFields
  by_cases filter : index < 8
  · simp [filter]
  · by_cases intake : index = 8
    · simp [intake]
    · rw [dif_neg filter, if_neg intake, if_neg filter, if_neg intake]
      split <;> simp

theorem laid_statusFields_length (s : State) : (laid (statusFields s)).length = 200 := by
  simp [laid_length, statusFields, allKinds, Function.comp_def]

theorem laid_policyFields_length (s : State) (k : FaultKind) : (laid (policyFields s k)).length = 8 := by
  cases k <;> rfl

theorem laid_keyRecordFields_length (x : KeySlot) : (laid (keyRecordFields x)).length = 40 := by
  cases x <;> rfl

/-- A record as read has the length that Table 11-1 gives its table. -/
theorem recordBytes_length {s : State} {t : LinkTable} {index : Nat} {bytes : List Byte}
    (h : recordBytes s t index = some bytes) : bytes.length = readLength s t index := by
  rw [recordBytes_laid h]
  cases t with
  | key => exact laid_keyRecordFields_length _
  | showing => exact laid_showFields_length _
  | filter => exact laid_filterFields_length _ _
  | policy =>
    have fits : index < allKinds.length := by
      by_contra beyond
      rw [recordBytes_outside (.inl (Nat.not_lt.mp beyond))] at h
      cases h
    rw [recordFields, List.getElem?_eq_getElem fits]
    exact laid_policyFields_length s _
  | status => exact laid_statusFields_length s
  | log =>
    have held : index < s.count.ram.log.length := by
      by_contra beyond
      rw [recordBytes_outside (.inr ⟨rfl, Nat.not_lt.mp beyond⟩)] at h
      cases h
    rw [recordFields, List.getElem?_eq_getElem held]; rfl
  | _ => rfl

/-! ### The request and the transfer (R160) -/

theorem exec_readRecord_some {s : State} {t : LinkTable} {i : Byte} {bytes : List Byte} (linked : Linked s)
    (h : recordBytes s t i.toNat = some bytes) : exec (.readRecord t i) s =
      .next { s with link := { s.link with snapshot := { result := .ok, bytes := bytes } }, out := { acked := 6 } } := by
  show Host.Outcome.next (onLink 6 s _) = _
  rw [onLink_linked linked, show recordBytes (quiet s) t i.toNat = some bytes from h]; rfl

theorem exec_readRecord_none {s : State} {t : LinkTable} {i : Byte} (linked : Linked s)
    (h : recordBytes s t i.toNat = none) : exec (.readRecord t i) s =
      .next { s with link := { s.link with snapshot := { result := .badIndex, bytes := [] } }, out := { acked := 6 } } := by
  show Host.Outcome.next (onLink 6 s _) = _
  rw [onLink_linked linked, show recordBytes (quiet s) t i.toNat = none from h]; rfl

/-- The first `n` bytes of a list that goes on with one byte for ever. -/
theorem take_append_replicate {α : Type} (w : List α) (a : α) (n : Nat) :
    (w ++ List.replicate n a).take n = w.take n ++ List.replicate (n - w.length) a := by
  rw [List.take_append, List.take_replicate, Nat.min_eq_left (Nat.sub_le n w.length)]

theorem exec_readTransfer {s : State} (linked : Linked s) (n : Nat) : exec (.readTransfer n) s =
    .next { s with out := { link := (transferBytes s ++ List.replicate n 255#8).take n, acked := 1 } } := by
  show Host.Outcome.next (onLink 1 s _) = _
  rw [onLink_linked linked, take_append_replicate]; rfl

theorem readAddressByte_toNat (s : State) : (readAddressByte s).toNat = 2 * (88 + s.power.straps.toNat) + 1 := by
  have := s.power.straps.isLt
  rw [readAddressByte, readAddress, BitVec.toNat_ofNat]
  omega

/-- Settles O50: the snapshot of each table's record, the transfer of it, and the codes. -/
theorem readsTakeAndDeliverSnapshots : Obligations.ReadsTakeAndDeliverSnapshots := by
  unfold Obligations.ReadsTakeAndDeliverSnapshots
  refine ⟨fun s linked => ⟨fun t i => ⟨fun outside => ?_, fun inside => ?_⟩, fun n => exec_readTransfer linked n⟩,
    recordBytes_withMaterial, fun r => by cases r <;> rfl, readAddressByte_toNat, fun _ => rfl,
    fun who => by cases who <;> rfl⟩
  · exact exec_readRecord_none linked (recordBytes_outside outside)
  · obtain ⟨bytes, read⟩ := recordBytes_inside inside
    exact ⟨bytes, read, recordBytes_laid read, exec_readRecord_some linked read, recordBytes_length read⟩

end Sys2Proof.Machine
end

section
/-! SUPPORT. Proofs/Lanes.lean: the law of a lane, and what keeps it: the arrival of a cue, activation
and flushes (R106 to R109, R114). -/

namespace Sys2Proof.Machine

/-! ### The queue's order (R106) -/

/-- Inserting a cue adds it to the queue, and moves no other. -/
theorem insertCue_perm (c : Cue) (queue : List Cue) : (insertCue c queue).Perm (c :: queue) := by
  induction queue with
  | nil => exact .refl _
  | cons d queue ih =>
    unfold insertCue; split
    · exact (ih.cons d).trans (.swap c d queue)
    · exact .refl _

/-- A cue inserted keeps the queue in order of in unit. -/
theorem insertCue_sorted (c : Cue) {queue : List Cue} (h : queue.Pairwise fun a b => a.inUnit ≤ b.inUnit) :
    (insertCue c queue).Pairwise fun a b => a.inUnit ≤ b.inUnit := by
  induction queue with
  | nil => exact List.pairwise_singleton _ c
  | cons d queue ih =>
    obtain ⟨first, rest⟩ := List.pairwise_cons.mp h
    unfold insertCue; split
    · next le =>
      refine List.pairwise_cons.mpr ⟨fun e he => ?_, ih rest⟩
      rcases List.mem_cons.mp ((insertCue_perm c queue).mem_iff.mp he) with rfl | tail
      · exact le
      · exact first e tail
    · next gt =>
      refine List.pairwise_cons.mpr ⟨fun e he => ?_, h⟩
      rcases List.mem_cons.mp he with rfl | tail
      · omega
      · have := first e tail; omega

/-! ### The law of a lane -/

/-- A lane that has lost cues and gained none keeps its law. -/
theorem laneOk.of_sublist {x y : Lane} (h : laneOk x) (queue : y.queue.Sublist x.queue)
    (numbers : (cueNumbers y).Sublist (cueNumbers x)) : laneOk y := by
  obtain ⟨room, order, nodup⟩ := h
  exact ⟨queue.length_le.trans room, order.sublist queue, nodup.sublist numbers⟩

/-- A lane with the same queue and the same active cue's number keeps its law. -/
theorem laneOk.of_same {x y : Lane} (h : laneOk x) (queue : y.queue = x.queue) (numbers : cueNumbers y = cueNumbers x) :
    laneOk y := h.of_sublist (queue ▸ .refl _) (numbers ▸ .refl _)

/-- A cue of a new number inserted where there is room keeps the law. -/
theorem laneOk.insert {x y : Lane} {c : Cue} {rest : List Cue} (h : laneOk x) (queue : y.queue = insertCue c rest)
    (active : y.active = x.active) (kept : rest.Sublist x.queue) (room : rest.length < 16)
    (queued : ∀ d ∈ rest, d.number ≠ c.number) (shown : ∀ a, x.active = some a → a.cue.number ≠ c.number) : laneOk y := by
  obtain ⟨-, order, nodup⟩ := h
  unfold laneOk cueNumbers
  rw [queue, active]
  refine ⟨?_, insertCue_sorted c (order.sublist kept), ?_⟩
  · rw [(insertCue_perm c rest).length_eq]; exact room
  · have numbers : ((x.active.map (·.cue.number)).toList ++ (insertCue c rest).map (·.number)).Perm
        (c.number :: ((x.active.map (·.cue.number)).toList ++ rest.map (·.number))) :=
      (((insertCue_perm c rest).map (·.number)).append_left _).trans List.perm_middle
    rw [numbers.nodup_iff, List.nodup_cons]
    refine ⟨?_, nodup.sublist (.append (.refl _) (kept.map _))⟩
    rw [List.mem_append, not_or]
    constructor
    · intro same
      obtain ⟨a, ha, e⟩ := Option.map_eq_some_iff.mp (Option.mem_toList.mp same)
      exact shown a ha e
    · intro same
      obtain ⟨d, hd, e⟩ := List.mem_map.mp same
      exact queued d hd e

/-! ### Arrival (R107, R108) -/

/-- The four cases of R108 keep the law, for a cue whose number is not the active cue's. -/
theorem arriveQueued_laneOk {x : Lane} (h : laneOk x) (playing : Bool) (p : Nat) {c : Cue}
    (shown : ∀ a, x.active = some a → a.cue.number ≠ c.number) : laneOk (laneArrive.arriveQueued playing p c x).1 := by
  unfold laneArrive.arriveQueued; split
  · next same =>
    obtain ⟨d, hd, e⟩ := List.any_eq_true.mp same
    have fewer : (x.queue.filter fun d => d.number != c.number).length < x.queue.length :=
      List.length_filter_lt_length_iff_exists.mpr ⟨d, hd, by simpa using e⟩
    refine h.insert rfl rfl List.filter_sublist (fewer.trans_le h.1) (fun b hb => ?_) shown
    simpa using (List.mem_filter.mp hb).2
  · next fresh =>
    split
    · exact h.of_same rfl rfl
    · split
      · exact h.of_same rfl rfl
      · next room =>
        refine h.insert rfl rfl (.refl _) (by omega) (fun b hb => ?_) shown
        intro e
        exact fresh (List.any_eq_true.mpr ⟨b, hb, beq_iff_eq.mpr e⟩)

theorem laneArrive_laneOk {x : Lane} (h : laneOk x) (playing : Bool) (p : Nat) (c : Cue) :
    laneOk (laneArrive playing p c x).1 := by
  unfold laneArrive; split
  · next a active =>
    split
    · exact h.of_same rfl (by simp [cueNumbers, active])
    · next other =>
      exact arriveQueued_laneOk h playing p fun b hb => Option.some.inj (active.symm.trans hb) ▸ other
  · next idle => exact arriveQueued_laneOk h playing p fun b hb => absurd (idle.symm.trans hb) nofun

/-! ### Activation and flushes (R109, R114) -/

/-- Retirement takes the active cue away or leaves its number. -/
theorem retireActive_laneOk {x : Lane} (h : laneOk x) (p : Nat) : laneOk (retireActive p x) := by
  have number (a : ActiveCue) : (applyUpdate a).cue.number = a.cue.number := by unfold applyUpdate; split <;> rfl
  unfold retireActive; split
  · exact h
  · next a active =>
    split
    · exact h.of_sublist (.refl _) (List.sublist_append_right _ _)
    · exact h.of_same rfl (by simp [cueNumbers, active, number])

/-- The queue is its due cues and then its later ones. -/
theorem dueCues_append_laterCues (p bound : Nat) (queue : List Cue) :
    dueCues p bound queue ++ laterCues p bound queue = queue := List.takeWhile_append_dropWhile

/-- A due cue that becomes active was in the queue, and has left it. -/
theorem takeDue_laneOk {x : Lane} (h : laneOk x) (p bound : Nat) : laneOk (takeDue p bound x) := by
  have later : (laterCues p bound x.queue).Sublist x.queue := List.dropWhile_sublist _
  unfold takeDue; dsimp only; split
  · exact h.of_sublist later (.append (.refl _) (later.map _))
  · next c last =>
    have due : c ∈ dueCues p bound x.queue := (List.mem_filter.mp (List.mem_of_getLast? last)).1
    have left : (c :: laterCues p bound x.queue).Sublist x.queue := by
      have := (List.singleton_sublist.mpr due).append (List.Sublist.refl (laterCues p bound x.queue))
      rwa [dueCues_append_laterCues] at this
    have numbers : ((c :: laterCues p bound x.queue).map (·.number)).Sublist (cueNumbers x) :=
      (left.map _).trans (List.sublist_append_right _ _)
    exact h.of_sublist later numbers

theorem laneActivate_laneOk {x : Lane} (h : laneOk x) (p bound : Nat) : laneOk (laneActivate p bound x) :=
  takeDue_laneOk (retireActive_laneOk h p) p bound

theorem laneFlush_laneOk (x : Lane) : laneOk (laneFlush x) := ⟨Nat.zero_le _, .nil, .nil⟩

end Sys2Proof.Machine
end

section
/-! SUPPORT. Proofs/Contexts.lean: the unit-check contexts: what each operation leaves in them, and that it keeps them
lawful (R79 to R81, R83). -/

namespace Sys2Proof.Machine

/-! ### A context written -/

@[simp] theorem contextOf_putContext_self (i : Bool) (c : Option UnitContext) (u : Unpack) :
    contextOf (putContext i c u) i = c := by cases i <;> rfl

@[simp] theorem contextOf_putContext_other (i : Bool) (c : Option UnitContext) (u : Unpack) :
    contextOf (putContext i c u) (!i) = contextOf u (!i) := by cases i <;> rfl

@[simp] theorem contextOf_abandon (i j : Bool) (u : Unpack) : contextOf (abandon i u) j = contextOf (putContext i none u) j := by
  cases i <;> cases j <;> rfl

theorem contextOf_useContext_self (i : Bool) (c : UnitContext) (u : Unpack) :
    contextOf (useContext i c u) i = some { c with recent := true } := by cases i <;> rfl

theorem contextOf_useContext_other (i : Bool) (c : UnitContext) (u : Unpack) :
    contextOf (useContext i c u) (!i) = (contextOf u (!i)).map fun d => { d with recent := false } := by cases i <;> rfl

/-! ### The law of the contexts -/

/-- Two contexts, each expecting a line of its unit, of two units, and used one after the other. -/
def ContextsApart (c d : Option UnitContext) : Prop :=
  (∀ x, c = some x → contextOk x) ∧ (∀ x, d = some x → contextOk x) ∧
    ∀ x y, c = some x → d = some y → x.unit ≠ y.unit ∧ x.recent ≠ y.recent

/-- The law of an engine's two contexts. -/
def ContextsLawful (u : Unpack) : Prop := ContextsApart u.context0 u.context1

theorem contextsOk_iff (s : State) : ContextsOk s ↔ ContextsLawful s.unpack := Iff.rfl

theorem ContextsApart.symm {c d : Option UnitContext} (h : ContextsApart c d) : ContextsApart d c := by
  obtain ⟨hc, hd, apart⟩ := h
  exact ⟨hd, hc, fun x y hx hy => ⟨(apart y x hy hx).1.symm, (apart y x hy hx).2.symm⟩⟩

/-- A FREE context is apart from any lawful one. -/
theorem ContextsApart.free {c d : Option UnitContext} (h : ContextsApart c d) : ContextsApart none d := ⟨nofun, h.2.1, nofun⟩

/-- The law, said of one context and the other. -/
theorem contextsLawful_iff (i : Bool) (u : Unpack) : ContextsLawful u ↔ ContextsApart (contextOf u i) (contextOf u (!i)) := by
  cases i
  · rfl
  · exact ⟨ContextsApart.symm, ContextsApart.symm⟩

theorem putContext_none_lawful {u : Unpack} (h : ContextsLawful u) (i : Bool) : ContextsLawful (putContext i none u) := by
  rw [contextsLawful_iff i, contextOf_putContext_self, contextOf_putContext_other]
  exact ((contextsLawful_iff i u).mp h).free

theorem abandon_lawful {u : Unpack} (h : ContextsLawful u) (i : Bool) : ContextsLawful (abandon i u) := by
  rw [contextsLawful_iff i, contextOf_abandon, contextOf_abandon, ← contextsLawful_iff]
  exact putContext_none_lawful h i

/-- A context used keeps the law, when the other tracks another unit. -/
theorem useContext_lawful {u : Unpack} (h : ContextsLawful u) {i : Bool} {c : UnitContext} (lawful : contextOk c)
    (apart : ∀ d, contextOf u (!i) = some d → d.unit ≠ c.unit) : ContextsLawful (useContext i c u) := by
  obtain ⟨-, other, -⟩ := (contextsLawful_iff i u).mp h
  rw [contextsLawful_iff i, contextOf_useContext_self, contextOf_useContext_other]
  refine ⟨fun x hx => ?_, fun y hy => ?_, fun x y hx hy => ?_⟩
  · cases hx; exact lawful
  · obtain ⟨d, hd, rfl⟩ := Option.map_eq_some_iff.mp hy
    exact other d hd
  · obtain ⟨d, hd, rfl⟩ := Option.map_eq_some_iff.mp hy
    cases hx
    exact ⟨(apart d hd).symm, nofun⟩

/-! ### The context that tracks a unit -/

/-- The context that is named tracks the unit. -/
theorem trackedBy_some {u : Unpack} {unit : Nat} {i : Bool} (h : trackedBy u unit = some i) :
    ∃ c, contextOf u i = some c ∧ c.unit = unit := by
  cases i
  · exact (holdsUnit_iff _ _).mp ((trackedBy_false u unit).mp h)
  · exact (holdsUnit_iff _ _).mp ((trackedBy_true u unit).mp h).2

/-- No context tracks the unit when none is named. -/
theorem trackedBy_none {u : Unpack} {unit : Nat} :
    trackedBy u unit = none ↔ ∀ i c, contextOf u i = some c → c.unit ≠ unit := by
  have named : trackedBy u unit = none ↔ ¬ holdsUnit u.context0 unit = true ∧ ¬ holdsUnit u.context1 unit = true := by
    unfold trackedBy
    cases holdsUnit u.context0 unit <;> cases holdsUnit u.context1 unit <;> simp
  simp [named, holdsUnit_iff, contextOf]

/-- Of lawful contexts the one not named tracks another unit. -/
theorem ContextsLawful.other_unit {u : Unpack} (h : ContextsLawful u) {i : Bool} {c d : UnitContext}
    (hc : contextOf u i = some c) (hd : contextOf u (!i) = some d) : d.unit ≠ c.unit := by
  obtain ⟨-, -, apart⟩ := (contextsLawful_iff i u).mp h
  exact (apart c d hc hd).1.symm

/-- Of lawful contexts the one that holds a unit is the one that tracks it. -/
theorem ContextsLawful.trackedBy {u : Unpack} (h : ContextsLawful u) {i : Bool} {c : UnitContext}
    (hc : contextOf u i = some c) : trackedBy u c.unit = some i := by
  cases named : Machine.trackedBy u c.unit with
  | none => exact absurd rfl (trackedBy_none.mp named i c hc)
  | some j =>
    obtain ⟨d, hd, same⟩ := trackedBy_some named
    by_cases e : j = i
    · rw [e]
    · rw [Bool.eq_not_of_ne e] at hd
      exact absurd same (h.other_unit hc hd)

theorem freeUnit_lawful {u : Unpack} (h : ContextsLawful u) (unit : Nat) : ContextsLawful (freeUnit unit u) := by
  unfold freeUnit; split
  · exact putContext_none_lawful h _
  · exact h

/-! ### Claims (R79) -/

/-- The context that is not claimed tracks another unit. -/
theorem claimFor_apart {u : Unpack} (h : ContextsLawful u) (unit : Nat) :
    ∀ d, contextOf (claimFor unit u).2 (!(claimFor unit u).1) = some d → d.unit ≠ unit := by
  intro d hd
  unfold claimFor at hd
  split at hd
  · next i tracked =>
    obtain ⟨c, hc, rfl⟩ := trackedBy_some tracked
    exact h.other_unit hc hd
  · next untracked =>
    have apart := trackedBy_none.mp untracked
    split at hd
    · exact apart _ d hd
    · split at hd
      · exact apart _ d hd
      · rw [contextOf_abandon, contextOf_putContext_other] at hd
        exact apart _ d hd

theorem claimFor_lawful {u : Unpack} (h : ContextsLawful u) (unit : Nat) : ContextsLawful (claimFor unit u).2 := by
  unfold claimFor; split
  · exact h
  · split
    · exact h
    · split
      · exact h
      · exact abandon_lawful h _

/-- A unit with a payload has a payload line (R78). -/
theorem payloadLines_pos {length : Nat} (h : length ≠ 0) : 1 ≤ payloadLines length := by unfold payloadLines; omega

theorem claimContext_lawful {u : Unpack} (h : ContextsLawful u) {length : Nat} (payload : length ≠ 0) (unit : Nat)
    (crc : BitVec 32) : ContextsLawful (claimContext unit length crc u) :=
  useContext_lawful (claimFor_lawful h unit) ⟨Nat.le_refl 1, payloadLines_pos payload⟩ (claimFor_apart h unit)

/-! ### A line at the contexts -/

/-- What a line can change of the Unpack Engine: the contexts and the two counts of units. -/
def ChecksOnly (x u : Unpack) : Prop :=
  u = { x with
    context0 := u.context0, context1 := u.context1, checkedUnits := u.checkedUnits, uncheckedUnits := u.uncheckedUnits }

/-- What the checks of a line leave of the Unpack Engine. -/
theorem ChecksOnly.kept {x u : Unpack} (h : ChecksOnly x u) : u.withheldPicture = x.withheldPicture ∧
    u.withheldSound = x.withheldSound ∧ u.frontier = x.frontier := by rw [h]; exact ⟨rfl, rfl, rfl⟩

theorem putContext_checksOnly (i : Bool) (c : Option UnitContext) (u : Unpack) : ChecksOnly u (putContext i c u) := by
  cases i <;> rfl

theorem useContext_checksOnly (i : Bool) (c : UnitContext) (u : Unpack) : ChecksOnly u (useContext i c u) := by cases i <;> rfl

theorem abandon_checksOnly (i : Bool) (u : Unpack) : ChecksOnly u (abandon i u) := by cases i <;> rfl

theorem ChecksOnly.trans {x y z : Unpack} (h : ChecksOnly x y) (g : ChecksOnly y z) : ChecksOnly x z := by
  unfold ChecksOnly at *; rw [h] at g; exact g

theorem freeUnit_checksOnly (unit : Nat) (u : Unpack) : ChecksOnly u (freeUnit unit u) := by
  unfold freeUnit; split
  · exact putContext_checksOnly _ _ u
  · rfl

theorem claimContext_checksOnly (unit length : Nat) (crc : BitVec 32) (u : Unpack) :
    ChecksOnly u (claimContext unit length crc u) := by
  have claimed : ChecksOnly u (claimFor unit u).2 := by
    unfold claimFor; split
    · rfl
    · split
      · rfl
      · split
        · rfl
        · exact abandon_checksOnly _ u
  exact claimed.trans (useContext_checksOnly _ _ _)

/-- A line at a place has left the Unpack Engine as `u`, which keeps the law, and has raised UNIT_CHECK or not. -/
def LineChecked (place : EssencePlace) (s t : State) : Prop :=
  ∃ u, ChecksOnly s.unpack u ∧ (ContextsLawful s.unpack → ContextsLawful u) ∧
    (t = s.setUnpack u ∨ ∃ cause, t = raiseUnitCheck cause place (s.setUnpack u))

/-- A unit's completion, of contexts left as `u`. -/
theorem completeUnit_checked {s : State} {u : Unpack} (only : ChecksOnly s.unpack u)
    (lawful : ContextsLawful s.unpack → ContextsLawful u) (place : EssencePlace) (register crc : BitVec 32) :
    LineChecked place s (completeUnit place register crc (s.setUnpack u)) := by
  unfold completeUnit; split
  · exact ⟨{ u with checkedUnits := satInc Config.max32 u.checkedUnits }, only.trans rfl, lawful, .inl rfl⟩
  · exact ⟨u, only, lawful, .inr ⟨.crc, rfl⟩⟩

theorem checkHeader_checked (place : EssencePlace) (stride : Nat) (opened : Line) (s : State) :
    LineChecked place s (checkHeader place stride opened s) := by
  have only := freeUnit_checksOnly place.unit s.unpack
  have lawful : ContextsLawful s.unpack → _ := fun h => freeUnit_lawful h place.unit
  unfold checkHeader; dsimp only; split
  · exact ⟨_, only, lawful, .inr ⟨.number, rfl⟩⟩
  · split
    · exact ⟨_, only, lawful, .inr ⟨.length, rfl⟩⟩
    · split
      · exact completeUnit_checked only lawful place _ _
      · next payload =>
        exact ⟨_, claimContext_checksOnly _ _ _ _, fun h => claimContext_lawful h payload _ _, .inl rfl⟩

theorem checkPayload_checked {s : State} {i : Bool} {c : UnitContext} (tracking : contextOf s.unpack i = some c)
    (place : EssencePlace) (opened : Line) : LineChecked place s (checkPayload place i c opened s) := by
  unfold checkPayload; split
  · split
    · exact completeUnit_checked (putContext_checksOnly _ _ _) (fun h => putContext_none_lawful h i) place _ _
    · next more =>
      have onward (h : ContextsLawful s.unpack) :
          contextOk { c with expectedLine := c.expectedLine + 1, register := foldLine c opened } := by
        obtain ⟨lawful, -, -⟩ := (contextsLawful_iff i _).mp h
        exact ⟨Nat.le_add_left 1 _, Nat.lt_of_le_of_ne (lawful c tracking).2 more⟩
      have apart (h : ContextsLawful s.unpack) : ∀ d, contextOf s.unpack (!i) = some d → d.unit ≠ c.unit :=
        fun d hd => h.other_unit tracking hd
      exact ⟨_, useContext_checksOnly _ _ _, fun h => useContext_lawful h (onward h) (apart h), .inl rfl⟩
  · exact ⟨_, abandon_checksOnly _ _, fun h => abandon_lawful h i, .inl rfl⟩

/-- A line changes no more than the contexts and the counts of units, keeps the law, and raises UNIT_CHECK or does not
(R79 to R82). -/
theorem checkLine_checked (place : EssencePlace) (stride : Nat) (opened : Line) (s : State) :
    LineChecked place s (checkLine place stride opened s) := by
  have still : LineChecked place s s := ⟨s.unpack, rfl, id, .inl rfl⟩
  unfold checkLine; split
  · exact checkHeader_checked place stride opened s
  · split
    · exact still
    · split
      · next tracking => exact checkPayload_checked tracking place opened
      · exact still

end Sys2Proof.Machine
end

section
/-! SUPPORT. Proofs/LineFrames.lean: the lanes and the unit-check contexts as one view of the state, the operations that leave
it, and those that change it and keep the laws (R80, R83, R106). -/

namespace Sys2Proof.Machine

/-! ### What the laws read -/

/-- Both lanes, and both unit-check contexts. -/
def lineView (s : State) : (Lane × Lane) × Option UnitContext × Option UnitContext :=
  ((s.cues.laneA, s.cues.laneB), s.unpack.context0, s.unpack.context1)

/-- The law of the lanes and the law of the contexts go over from one state to another, each by itself. -/
structure LineLawsKept (s t : State) : Prop where
  lanes : LanesOk s → LanesOk t
  contexts : ContextsOk s → ContextsOk t

theorem LineLawsKept.refl (s : State) : LineLawsKept s s := ⟨id, id⟩

theorem LineLawsKept.trans {s t u : State} (h : LineLawsKept s t) (g : LineLawsKept t u) : LineLawsKept s u :=
  ⟨g.lanes ∘ h.lanes, g.contexts ∘ h.contexts⟩

/-- The laws are facts about the view alone. -/
theorem LineLawsKept.of_view {s t : State} (e : lineView t = lineView s) : LineLawsKept s t := by
  simp only [lineView, Prod.mk.injEq] at e
  obtain ⟨⟨a, b⟩, c, d⟩ := e
  constructor
  · unfold LanesOk; rw [a, b]; exact id
  · unfold ContextsOk; rw [c, d]; exact id

/-- A change of the lanes alone that keeps the law of each. -/
theorem setCues_lineLaws {x : CueIntake} {s : State} (a : laneOk s.cues.laneA → laneOk x.laneA)
    (b : laneOk s.cues.laneB → laneOk x.laneB) : LineLawsKept s (s.setCues x) := ⟨fun h => ⟨a h.1, b h.2⟩, id⟩

/-- A change of the Unpack Engine alone that keeps the law of its contexts. -/
theorem setUnpack_lineLaws {u : Unpack} {s : State} (h : ContextsLawful s.unpack → ContextsLawful u) :
    LineLawsKept s (s.setUnpack u) := ⟨id, h⟩

/-! ### Raises and withdrawals -/

theorem raiseFault_lineView (b : GainRamp) (k : FaultKind) (s : State) : lineView (raiseFault b k s) = lineView s := by
  simp [lineView]

theorem setDetector_lineView (k : FaultKind) (v : Bool) (s : State) : lineView (setDetector k v s) = lineView s := by
  cases k <;> rfl

theorem raiseCondition_lineView (b : GainRamp) (k : FaultKind) (s : State) : lineView (raiseCondition b k s) = lineView s := by
  unfold raiseCondition; split
  · rfl
  · exact (raiseFault_lineView b k _).trans (setDetector_lineView k true s)

theorem withdraw_lineView (k : FaultKind) (s : State) : lineView (withdraw k s) = lineView s := setDetector_lineView k false s

theorem outputReturned_lineView (b : GainRamp) (s : State) : lineView (outputReturned b s) = lineView s := by
  unfold outputReturned; split <;> rfl

/-! ### The lanes -/

theorem putLane_lineLaws {lane : LaneId} {x : Lane} {s : State} (h : laneOk (cueLane s lane) → laneOk x) :
    LineLawsKept s (putLane lane x s) := by
  cases lane with
  | a => exact setCues_lineLaws h id
  | b => exact setCues_lineLaws id h

theorem activateLane_lineLaws (lane : LaneId) (p bound : Nat) (s : State) : LineLawsKept s (activateLane lane p bound s) := by
  have put := putLane_lineLaws (lane := lane) (s := s) fun h => laneActivate_laneOk h p bound
  unfold activateLane; dsimp only; split
  · exact put.trans (.of_view rfl)
  · exact put

theorem activateLanes_lineLaws (p bound : Nat) (s : State) : LineLawsKept s (activateLanes p bound s) :=
  (activateLane_lineLaws .a p bound s).trans (activateLane_lineLaws .b p bound _)

theorem flushLanes_lineLaws (s : State) : LineLawsKept s (flushLanes s) :=
  setCues_lineLaws (fun _ => laneFlush_laneOk _) fun _ => laneFlush_laneOk _

/-! ### The advance and the Show Clock -/

/-- An advance activates both lanes, and leaves the contexts (R83, R109). -/
theorem Advanced.lineLaws {s t : State} (h : Advanced s t) : LineLawsKept s t := by
  obtain ⟨bound, -, cues, -, -⟩ := h.lanes
  constructor
  · intro ⟨a, b⟩
    unfold LanesOk; rw [cues]
    exact ⟨laneActivate_laneOk a _ _, laneActivate_laneOk b _ _⟩
  · unfold ContextsOk; rw [h.unpackRest]; exact id

theorem syncFound_lineView (s : State) : lineView (syncFound s) = lineView s := by rw [syncFound_eq]; rfl

theorem lateEdge_lineLaws (s : State) : LineLawsKept s (lateEdge s) := by
  unfold lateEdge; dsimp only; split
  · exact (miss_advanced s).lineLaws.trans (.of_view rfl)
  · exact (miss_advanced s).lineLaws

theorem clockEdge_lineLaws (s : State) : LineLawsKept s (clockEdge s) := by
  have counted : LineLawsKept s (countEdge s) := .of_view rfl
  unfold clockEdge; split
  · exact counted
  · exact .of_view (syncFound_lineView _)
  · split
    · exact counted
    · refine counted.trans ?_
      unfold judgeEdge; split
      · exact .of_view rfl
      · split
        · exact lateEdge_lineLaws _
        · exact (acceptEdge_advanced _).lineLaws

theorem clockLeaves_lineView (s : State) : lineView (clockLeaves s) = lineView s := by
  unfold clockLeaves; dsimp only; split <;> rfl

/-! ### The Unpack Engine -/

theorem LineChecked.lineLaws {place : EssencePlace} {s t : State} (h : LineChecked place s t) : LineLawsKept s t := by
  obtain ⟨u, -, lawful, rfl | ⟨cause, rfl⟩⟩ := h
  · exact setUnpack_lineLaws lawful
  · exact (setUnpack_lineLaws lawful).trans (.of_view (raiseFault_lineView _ _ _))

theorem movePictureFrontier_lineView (place : EssencePlace) (s : State) :
    lineView (movePictureFrontier place s) = lineView s := by
  unfold movePictureFrontier; split <;> rfl

theorem countWithheld_lineView (kind : EssenceKind) (reason : WithheldReason) (s : State) :
    lineView (countWithheld kind reason s) = lineView s := by cases kind <;> rfl

theorem pictureReturn_lineLaws (txn : Nat) (x : Binding) (line : Line) (s : State) :
    LineLawsKept s (pictureReturn txn x line s) := by
  unfold pictureReturn; split
  · exact .of_view (countWithheld_lineView _ _ s)
  · exact (checkLine_checked _ _ _ s).lineLaws.trans (.of_view (movePictureFrontier_lineView _ _))

theorem soundReturn_lineView (txn : Nat) (x : Binding) (line : Line) (s : State) :
    lineView (soundReturn txn x line s) = lineView s := by
  unfold soundReturn; split
  · exact countWithheld_lineView _ _ s
  · rfl

/-- An error abandons a context or leaves both (R81). -/
theorem errorUnpack_lawful {s : State} (h : ContextsLawful s.unpack) (x : Binding) : ContextsLawful (errorUnpack s x) := by
  unfold errorUnpack; split
  · exact abandon_lawful h _
  · exact h

/-! ### Reads and writes -/

theorem raiseAccess_lineView (cause : AccessCause) (who : Originator) (x : Binding) (line : Nat) (s : State) :
    lineView (raiseAccess cause who x line s) = lineView s := by
  rw [raiseAccess, noteAccess_eq]; exact raiseFault_lineView _ _ _

theorem readArrives_lineView (line : Nat) (who : Originator) (x : Binding) (s : State) :
    lineView (readArrives line who x s) = lineView s := by
  unfold readArrives; split
  · exact raiseAccess_lineView _ _ _ _ _
  · rw [forwardRead_eq, countRaw_eq]; rfl
  · rw [forwardRead_eq]; rfl

theorem writeArrives_lineView (line : Nat) (who : Originator) (data : Line) (enables : BitVec 64) (x : Binding) (s : State) :
    lineView (writeArrives line who data enables x s) = lineView s := by
  unfold writeArrives; split
  · rfl
  · exact raiseAccess_lineView _ _ _ _ _

theorem joinDisplay_lineView (r : ReadInFlight) (s : State) : lineView (joinDisplay r s) = lineView s := by
  unfold joinDisplay; split
  · split
    · rw [displayReturn_eq]; rfl
    · rfl
  · rfl

theorem readReturns_lineLaws (r : ReadInFlight) (ans : ReadAnswer) (s : State) : LineLawsKept s (readReturns r ans s) := by
  cases ans with
  | data line =>
    have dropped : LineLawsKept s (dropRead r.txn s) := .of_view rfl
    unfold readReturns readData; dsimp only; split
    iterate 2 exact .of_view rfl
    · exact dropped.trans (pictureReturn_lineLaws _ _ _ _)
    · exact dropped.trans (.of_view (soundReturn_lineView _ _ _ _))
    · exact .of_view (joinDisplay_lineView _ s)
  | error =>
    by_cases picture : r.route = .picture
    · rw [readReturns, readError_picture picture]
      exact ⟨id, fun h => errorUnpack_lawful h r.binding⟩
    · rw [readReturns, readError_other picture]; exact .of_view rfl

theorem cueToLane_lineLaws (lane : LaneId) (c : Cue) (s : State) : LineLawsKept s (cueToLane lane c s) := by
  have arrives : LineLawsKept s (cueArrives lane c s) := by
    have put := putLane_lineLaws (lane := lane) (s := s) fun h => laneArrive_laneOk h (isPlaying s) s.ctl.position c
    unfold cueArrives; dsimp only; split
    · exact put.trans (.of_view (raiseFault_lineView _ _ _))
    · exact put
  unfold cueToLane; split
  iterate 2 exact .of_view rfl
  all_goals exact arrives

theorem cueIntake_lineLaws (data : Line) (enables : BitVec 64) (s : State) : LineLawsKept s (cueIntake data enables s) := by
  have taken : LineLawsKept s (countTaken s) := .of_view rfl
  unfold cueIntake; dsimp only; split
  · exact .of_view rfl
  · split
    · exact .of_view rfl
    · unfold cueFiltered; split
      · exact .of_view rfl
      all_goals exact taken.trans (cueToLane_lineLaws _ _ _)

theorem writeCompletes_lineLaws (w : WriteInFlight) (ok : Bool) (s : State) : LineLawsKept s (writeCompletes w ok s) := by
  have passed : LineLawsKept s (sendUp (if ok then .writeOk w.txn else .writeError w.txn) (dropWrite w.txn s)) := .of_view rfl
  unfold writeCompletes; dsimp only; split
  · exact passed.trans (cueIntake_lineLaws _ _ _)
  · exact passed

/-! ### The show -/

theorem showLoaded_lineLaws (w : ShowWrite) (s : State) : LineLawsKept s (showLoaded w s) := by
  refine .trans (t := flushLanes s) (flushLanes_lineLaws s) ?_
  unfold showLoaded; dsimp only; split <;> exact .of_view rfl

/-- A priming leaves the lanes and frees the contexts (R86). -/
theorem primeBlocks_lineLaws (s : State) : LineLawsKept s (primeBlocks s) := by
  rw [primeBlocks_eq]; exact ⟨id, fun _ => ⟨nofun, nofun, nofun⟩⟩

theorem showPrimed_lineLaws (r : ShowRecord) (s : State) : LineLawsKept s (showPrimed r s) := by
  have begun (c : Nat) : LineLawsKept s (primeCtl .full c s) := .of_view rfl
  have taken (t : State) (keys : Vector KeySlot 16) (count : CountUnit) :
      LineLawsKept t (answer .ok 0 ((t.setKeys keys).setCount count)) := .of_view rfl
  exact ((begun _).trans (primeBlocks_lineLaws _)).trans (taken _ _ _)

theorem previewPrimed_lineLaws (s : State) : LineLawsKept s (previewPrimed s) := by
  have begun : LineLawsKept s (primeCtl .preview 0 s) := .of_view rfl
  exact (begun.trans (primeBlocks_lineLaws _)).trans (.of_view rfl)

theorem answer_lineLaws (r : LinkResult) (d : Nat) (s : State) : LineLawsKept s (answer r d s) := .of_view rfl

theorem showStarted_lineLaws (s : State) : LineLawsKept s (showStarted s) := by
  have leaves : LineLawsKept s (clockLeaves ((setShowState .running (s.setCtl { s.ctl with position := 0 })).setClock
      (clearClockCounts s.clock))) := .of_view (clockLeaves_lineView _)
  exact (leaves.trans (activateLanes_lineLaws 0 (showTotal s) _)).trans (answer_lineLaws _ _ _)

/-- A stop flushes the lanes and frees the contexts (R86, R114). -/
theorem showStopped_lineLaws (s : State) : LineLawsKept s (showStopped s) := by
  have released : LineLawsKept s (releaseKeys s) := by
    unfold releaseKeys; split
    · split <;> exact .of_view rfl
    · exact .refl s
  refine released.trans ?_
  unfold showStopped; dsimp only
  rw [stopBlocks_eq, withdrawShow_eq]
  exact ⟨fun _ => ⟨laneFlush_laneOk _, laneFlush_laneOk _⟩, fun _ => ⟨nofun, nofun, nofun⟩⟩

/-! ### The Count Store and the Supervisor -/

theorem loadRam_lineView (s : State) : lineView (loadRam s) = lineView s := by rw [loadRam_eq]; rfl

theorem storeCompletes_lineView (w : StoreWrite) (s : State) : lineView (storeCompletes w s) = lineView s := by
  unfold storeCompletes afterWrite; split
  · unfold reloadIfDue; split
    · exact loadRam_lineView _
    · rfl
  · rfl

theorem storeFails_lineView (w : StoreWrite) (s : State) : lineView (storeFails w s) = lineView s := by
  have first : lineView (raiseFault s.sound.ramp .storeFail (failedStore w s)) = lineView s := raiseFault_lineView _ _ _
  unfold storeFails; dsimp only; split
  · exact (raiseFault_lineView _ _ _).trans first
  · exact first

theorem licenceDeleted_lineView (index : Fin 8) (s : State) : lineView (licenceDeleted index s) = lineView s := by
  unfold licenceDeleted; split <;> rfl

theorem expireKeys_lineView (s : State) : lineView (expireKeys s) = lineView s := by unfold expireKeys; split <;> rfl

theorem clearKinds_lineView (mask : BitVec 16) (kinds : List FaultKind) (s : State) :
    lineView (kinds.foldl (clearKind mask) s) = lineView s := by
  induction kinds generalizing s with
  | nil => rfl
  | cons k kinds ih =>
    have one : lineView (clearKind mask s k) = lineView s := by
      unfold clearKind; split
      · cases k <;> rfl
      · rfl
    exact (ih _).trans one

theorem faultsCleared_lineView (mask : BitVec 16) (s : State) : lineView (faultsCleared mask s) = lineView s := by
  have cleared := clearKinds_lineView mask allKinds s
  unfold faultsCleared; dsimp only; split
  · exact (outputReturned_lineView _ _).trans cleared
  · exact cleared

theorem watchdogFound_lineView (s : State) : lineView (watchdogFound s) = lineView s := by
  unfold watchdogFound; split
  · exact withdraw_lineView _ s
  · rfl

theorem feed_lineView (s : State) : lineView (feed s) = lineView s := by
  unfold feed; split
  · exact watchdogFound_lineView s
  · rfl

theorem writeFurther_lineView (k : FaultKind) (w : PolicyWrite) (s : State) : lineView (writeFurther k w s) = lineView s := by
  cases k with
  | watchdog =>
    show lineView (watchdogWritten _ _ s) = _
    unfold watchdogWritten; split
    · rfl
    · exact watchdogFound_lineView s
  | _ => rfl

end Sys2Proof.Machine
end

section
/-! SUPPORT. Proofs/LineSteps.lean: every step keeps the law of the lanes and the law of the unit-check contexts (R80, R83, R106). -/

namespace Sys2Proof.Machine

/-! ### Resets -/

/-- With no cue in either lane and both contexts FREE both laws hold. -/
theorem boothResetAll_lineLaws (s t : State) : LineLawsKept s (boothResetAll t) := by
  rw [boothResetAll_eq]; exact ⟨fun _ => lanesOk_reset, fun _ => contextsOk_reset⟩

theorem powerOnReset_lineLaws (supplyHeld readable : Bool) (straps : BitVec 2) (s : State) :
    LineLawsKept s (if readable then loadRam (powerBlocks supplyHeld readable straps s)
      else powerBlocks supplyHeld readable straps s) := by
  have powered : LineLawsKept s (powerBlocks supplyHeld readable straps s) :=
    ⟨fun _ => lanesOk_reset, fun _ => contextsOk_reset⟩
  split
  · exact powered.trans (.of_view (loadRam_lineView _))
  · exact powered

/-! ### Events and requests -/

theorem quiet_lineLaws (s : State) : LineLawsKept s (quiet s) := .of_view rfl

theorem whenOn_lineLaws {s : State} {f : State → State} (h : LineLawsKept s (f (quiet s))) : LineLawsKept s (whenOn s f) :=
  whenOn_keeps (quiet_lineLaws s) h

theorem onLink_lineLaws {n : Nat} {s : State} {f : State → State} (h : LineLawsKept s (f (quiet s))) :
    LineLawsKept s (onLink n s f) := onLink_keeps (.of_view rfl) h fun _ k => k.trans (.of_view rfl)

/-- A request that, carried out, keeps the laws. -/
theorem request_lineLaws {n : Nat} {s : State} {checks : State → List Check} {accept : State → State}
    (h : LineLawsKept s (accept (quiet s))) : LineLawsKept s (onLink n s fun s => checked (checks s) accept s) :=
  onLink_lineLaws (checked_keeps (fun _ => h) fun _ _ => .of_view rfl)

/-- An event whose effect comes only when it is due keeps what its effect keeps. -/
theorem due_lineLaws {s : State} {due : State → Bool} {f : State → State} (h : LineLawsKept s (f (quiet s))) :
    LineLawsKept s (whenOn s fun s => if due s then f s else s) := by
  apply whenOn_lineLaws; split
  · exact h
  · exact quiet_lineLaws s

/-! ### Every command -/

/-- Every command has a next state, which keeps both laws. -/
theorem exec_lineLaws (c : Instr) (s : State) : ∃ t, exec c s = .next t ∧ LineLawsKept s t := by
  have quieted := quiet_lineLaws s
  cases c with
  | lineRead addr who => exact ⟨_, rfl, whenOn_lineLaws (.of_view (readArrives_lineView _ _ _ (quiet s)))⟩
  | lineWrite addr who data enables =>
    exact ⟨_, rfl, whenOn_lineLaws (.of_view (writeArrives_lineView _ _ _ _ _ (quiet s)))⟩
  | readReturn txn ans =>
    refine ⟨_, rfl, whenOn_lineLaws (quieted.trans ?_)⟩; split
    · exact readReturns_lineLaws _ _ _
    · exact .refl _
  | sideReadReturn txn lane ans =>
    refine ⟨_, rfl, whenOn_lineLaws (quieted.trans ?_)⟩; split
    · exact .of_view (joinDisplay_lineView _ _)
    · exact .refl _
  | writeCompletion txn ok =>
    refine ⟨_, rfl, whenOn_lineLaws (quieted.trans ?_)⟩; split
    · exact writeCompletes_lineLaws _ _ _
    · exact .refl _
  | fsyncInEdge =>
    refine ⟨_, rfl, whenOn_lineLaws (quieted.trans ?_)⟩; split
    · exact .refl _
    · exact clockEdge_lineLaws _
  | windowExpiry => exact ⟨_, rfl, due_lineLaws (quieted.trans (miss_advanced _).lineLaws)⟩
  | anchorTimeout => exact ⟨_, rfl, due_lineLaws (.of_view (raiseCondition_lineView _ _ _))⟩
  | internalExpiry => exact ⟨_, rfl, due_lineLaws (quieted.trans (internalExpires_advanced _).lineLaws)⟩
  | loadShow w => exact ⟨_, rfl, request_lineLaws (quieted.trans (showLoaded_lineLaws w _))⟩
  | prime =>
    refine ⟨_, rfl, onLink_lineLaws (quieted.trans ?_)⟩; split
    · exact .of_view rfl
    · exact checked_keeps (fun _ => showPrimed_lineLaws _ _) fun _ _ => .of_view rfl
  | primePreview => exact ⟨_, rfl, request_lineLaws (quieted.trans (previewPrimed_lineLaws _))⟩
  | start => exact ⟨_, rfl, request_lineLaws (quieted.trans (showStarted_lineLaws _))⟩
  | resume => exact ⟨_, rfl, request_lineLaws (.of_view (clockLeaves_lineView _))⟩
  | stop => exact ⟨_, rfl, request_lineLaws (quieted.trans (showStopped_lineLaws _))⟩
  | keyExpiry index => exact ⟨_, rfl, due_lineLaws (.of_view rfl)⟩
  | secureTick =>
    refine ⟨_, rfl, ?_⟩; split
    · dsimp only; split
      · exact .of_view (expireKeys_lineView ((quiet s).setSecure _))
      · exact .of_view rfl
    · exact quieted
  | trimYearClose => refine ⟨_, rfl, ?_⟩; split <;> exact .of_view rfl
  | trimTime d => exact ⟨_, rfl, request_lineLaws (.of_view (expireKeys_lineView ((quiet s).setSecure _)))⟩
  | deleteLicence index => exact ⟨_, rfl, request_lineLaws (.of_view (licenceDeleted_lineView index (quiet s)))⟩
  | storeWriteCompletion =>
    refine ⟨_, rfl, whenOn_lineLaws ?_⟩; split
    · exact .of_view (storeCompletes_lineView _ (quiet s))
    all_goals exact quieted
  | storeWriteFailure =>
    refine ⟨_, rfl, whenOn_lineLaws ?_⟩; split
    · exact .of_view (storeFails_lineView _ (quiet s))
    all_goals exact quieted
  | clearFaults mask => exact ⟨_, rfl, onLink_lineLaws (.of_view (faultsCleared_lineView mask (quiet s)))⟩
  | tickle => exact ⟨_, rfl, onLink_lineLaws (.of_view (feed_lineView (quiet s)))⟩
  | wdTick =>
    refine ⟨_, rfl, whenOn_lineLaws ?_⟩; split
    · exact quieted
    · exact .of_view (feed_lineView _)
  | watchdogExpiry => exact ⟨_, rfl, due_lineLaws (.of_view (raiseCondition_lineView _ _ _))⟩
  | reset => exact ⟨_, rfl, onLink_lineLaws ((boothResetAll_lineLaws s _).trans (.of_view rfl))⟩
  | boothReset midTransfer =>
    refine ⟨_, rfl, ?_⟩; dsimp only; split
    · exact (boothResetAll_lineLaws s _).trans (.of_view rfl)
    · exact .of_view rfl
  | powerOnReset supplyHeld readable straps => exact ⟨_, rfl, powerOnReset_lineLaws supplyHeld readable straps s⟩
  | writeLowMark lane mark =>
    refine ⟨_, rfl, request_lineLaws ((quieted.trans (putLane_lineLaws fun h => ?_)).trans (.of_view rfl))⟩
    exact h.of_same rfl rfl
  | writePolicy kind w =>
    exact ⟨_, rfl, request_lineLaws (.of_view (writeFurther_lineView kind w (putPolicy kind _ (quiet s))))⟩
  | unrecognisedPacket op table index data =>
    refine ⟨_, rfl, onLink_lineLaws ?_⟩; split
    · unfold dispatchRefused; split <;> exact .of_view rfl
    · exact quieted
  | hold | unload | regionRecord index w | loadKey index blob check | purgeKey index | setTime t | loadLicence index blob check
  | popLog seq | setScreen id | writeClock window lossLimit =>
    exact ⟨_, rfl, request_lineLaws (.of_view rfl)⟩
  | setMute mask | laneEnable bits | ackEvents mask | writeEvents enables selects | readTransfer count =>
    exact ⟨_, rfl, onLink_lineLaws (.of_view rfl)⟩
  | writeFilter index w | writeDefaultAction action | readRecord table index | badCrc packet | badLengthTruncated staged =>
    refine ⟨_, rfl, onLink_lineLaws ?_⟩; split <;> exact .of_view rfl
  | brstNRelease | lossOfPower backupFails => exact ⟨_, rfl, .of_view rfl⟩

theorem idle_lineLaws (s : State) : LineLawsKept s (idle s) := by
  unfold idle; split <;> exact .of_view rfl

/-- Settles O58: a step is an idle microsecond or a command, and each keeps both laws. -/
theorem stepsKeepLanesAndContexts : Obligations.StepsKeepLanesAndContexts := by
  unfold Obligations.StepsKeepLanesAndContexts
  intro s t h
  suffices kept : LineLawsKept s t from ⟨kept.lanes, kept.contexts⟩
  unfold step at h
  split at h
  · exact Host.Outcome.next.inj h ▸ idle_lineLaws s
  · next c rest _ =>
    have taken : LineLawsKept s (s.setPending rest) := .of_view rfl
    obtain ⟨u, hu, kept⟩ := exec_lineLaws c (s.setPending rest)
    exact Host.Outcome.next.inj (hu.symm.trans h) ▸ taken.trans kept

end Sys2Proof.Machine
end

section
/-! SUPPORT. Proofs/PictureReads.lean: the return of a picture read: where it maps, what the gate decides, the keystream, and the
state that a line opened or withheld leaves (R70, R72 to R76, R84). -/

namespace Sys2Proof.Machine

/-! ### Reels and places (R70) -/

theorem reelOf_some {s : State} {i : Nat} {r : ShowRecord} {e : Reel} (record : s.ctl.record = some r)
    (reel : r.reels[i]? = some e) : reelOf s i = some (r, e) := by simp [reelOf, record, reel]

theorem reelOf_none {s : State} {i : Nat} (h : ∀ r, s.ctl.record = some r → r.reels[i]? = none) : reelOf s i = none := by
  cases record : s.ctl.record with
  | none => simp [reelOf, record]
  | some r => simp [reelOf, record, h r record]

/-- A reel of the record starts at the sum of the durations before it (R38). -/
theorem reelStart_of_reel {r : ShowRecord} {i : Nat} {e : Reel} (reel : r.reels[i]? = some e) :
    reelStart r i = ((r.reels.take i).map (·.duration)).sum := reelStart_eq (List.getElem?_eq_some_iff.mp reel).1

theorem mapPicture_none {s : State} {b : Binding} (h : reelOf s b.reel = none) : mapPicture s b = none := by
  rw [mapPicture, h]; rfl

theorem mapPicture_reel {s : State} {b : Binding} {r : ShowRecord} {e : Reel} (record : s.ctl.record = some r)
    (reel : r.reels[b.reel]? = some e) : mapPicture s b =
      if b.entry = some e.pictureRegion ∧ b.offset < e.duration * b.stride then
        some { reel := b.reel, within := b.offset / b.stride
               unit := ((r.reels.take b.reel).map (·.duration)).sum + b.offset / b.stride
               line := b.offset % b.stride, sample := 0 }
      else none := by
  rw [mapPicture, reelOf_some record reel, ← reelStart_of_reel reel]; rfl

/-! ### The gate (R72, R73) -/

theorem gateStateOk_iff (s : State) : gateStateOk s = true ↔
    s.ctl.mark = .full ∧ (s.ctl.state = .primed ∨ s.ctl.state = .running ∨ s.ctl.state = .held) := by
  unfold gateStateOk isFull
  cases s.ctl.state <;> simp

/-- The window's two bounds, as a signed comparison (R72). -/
theorem inWindow_iff (r : ShowRecord) (p unit : Nat) :
    inWindow r p unit = true ↔ (p : Int) - r.trail ≤ unit ∧ (unit : Int) ≤ p + r.lead := by
  simp only [inWindow, Bool.and_eq_true, decide_eq_true_eq]; omega

theorem gate_state {s : State} (h : ¬ gateStateOk s = true) (kind : EssenceKind) (b : Binding) :
    gate kind s b = .withheld .state := if_neg h

theorem gate_outsideReel {s : State} {kind : EssenceKind} {b : Binding} (showing : gateStateOk s = true)
    (h : mapEssence kind s b = none) : gate kind s b = .withheld .outsideReel := by
  rw [gate, if_pos showing, h]

theorem gate_window {s : State} {kind : EssenceKind} {b : Binding} {place : EssencePlace} {r : ShowRecord} {e : Reel}
    (showing : gateStateOk s = true) (mapped : mapEssence kind s b = some place) (reel : reelOf s b.reel = some (r, e))
    (outside : ¬ inWindow r s.ctl.position place.unit = true) : gate kind s b = .withheld .window := by
  rw [gate, if_pos showing, mapped, reel]; exact if_neg outside

theorem gate_key {s : State} {kind : EssenceKind} {b : Binding} {place : EssencePlace} {r : ShowRecord} {e : Reel}
    (showing : gateStateOk s = true) (mapped : mapEssence kind s b = some place) (reel : reelOf s b.reel = some (r, e))
    (inside : inWindow r s.ctl.position place.unit = true) : gate kind s b =
      match keyOpens s.keys[slotFor kind e] b.reel with
      | some (nonce, material) => .opened place nonce material
      | none => .withheld .key := by
  rw [gate, if_pos showing, mapped, reel]; exact if_pos inside

/-- The key test by the state of the slot: IN_USE opens, LAPSED opens its grace reel (R73, test 4). -/
theorem keyOpens_cases (slot : KeySlot) (place : EssencePlace) (reel : Nat) :
    (match keyOpens slot reel with
      | some (nonce, material) => GateResult.opened place nonce material
      | none => .withheld .key) =
    match slot with
    | .inUse f m => .opened place f.nonce m
    | .lapsed f m grace => if grace = reel then .opened place f.nonce m else .withheld .key
    | .empty | .loaded _ _ | .expired _ => .withheld .key := by
  cases slot with
  | lapsed f m grace => by_cases h : grace = reel <;> simp [keyOpens, h]
  | _ => rfl

/-! ### The keystream (R75) -/

/-- Byte j of a block made of bytes. -/
theorem blockOfBytes_byte (bs : List Byte) : ∀ j, j < 16 → (blockOfBytes bs).extractLsb' (8 * j) 8 = bs.getD j 0#8 := by
  induction bs with
  | nil => intro j _; simp [blockOfBytes]
  | cons b bs ih =>
    intro j hj
    rw [blockOfBytes]
    cases j with
    | zero =>
      ext k hk
      simp [show k < 128 by omega, show k < 8 by omega]
    | succ j =>
      rw [List.getD_cons_succ, ← ih j (by omega)]
      ext k hk
      have beyond : b.getLsbD (8 * (j + 1) + k) = false := BitVec.getLsbD_of_ge _ _ (by omega)
      simp [beyond, show 8 * (j + 1) + k < 128 by omega, show 8 * (j + 1) + k - 8 = 8 * j + k by omega,
        show ¬ 8 * (j + 1) + k < 8 by omega, BitVec.getLsbD_eq_getElem (show 8 * j + k < 128 by omega)]

/-- A byte of a number, by its place from the least significant byte. -/
theorem extract_byte {w : Nat} (x : BitVec w) (k : Nat) : x.extractLsb' (8 * k) 8 = BitVec.ofNat 8 (x.toNat / 256 ^ k) := by
  apply BitVec.eq_of_toNat_eq
  rw [BitVec.extractLsb'_toNat, BitVec.toNat_ofNat, Nat.shiftRight_eq_div_pow, Nat.pow_mul]

/-- A byte of a number laid most significant byte first. -/
theorem beBytes_getD {n j : Nat} (h : j < n) (v : Nat) : (beBytes n v).getD j 0#8 = BitVec.ofNat 8 (v / 256 ^ (n - 1 - j)) := by
  rw [← beBytes_laid]; simp [List.getD, h]

theorem length_beBytes (n v : Nat) : (beBytes n v).length = n := by rw [← beBytes_laid]; simp

/-- Byte j of a counter block: the nonce, the line offset, the block number (R75). -/
theorem counterBlock_byte (nonce : BitVec 64) (offset b : Nat) {j : Nat} (hj : j < 16) :
    (counterBlock nonce offset b).extractLsb' (8 * j) 8 =
      if j < 8 then nonce.extractLsb' (8 * (7 - j)) 8
      else if j < 12 then BitVec.ofNat 8 (offset / 256 ^ (11 - j))
      else BitVec.ofNat 8 (b / 256 ^ (15 - j)) := by
  rw [counterBlock, blockOfBytes_byte _ j hj]
  split
  · next nonces =>
    rw [List.getD_append _ _ _ _ (by simp [length_beBytes]; omega), List.getD_append _ _ _ _ (by simp [length_beBytes]; omega),
      beBytes_getD nonces, extract_byte]
  · next past =>
    split
    · next offsets =>
      rw [List.getD_append _ _ _ _ (by simp [length_beBytes]; omega),
        List.getD_append_right _ _ _ _ (by simp [length_beBytes]; omega), length_beBytes, beBytes_getD (by omega)]
      congr 3; omega
    · next blocks =>
      rw [List.getD_append_right _ _ _ _ (by simp [length_beBytes]; omega), List.length_append, length_beBytes, length_beBytes,
        beBytes_getD (by omega)]
      congr 3; omega

/-- Blocks whose bytes agree are equal. -/
theorem block_ext {x y : BitVec 128} (h : ∀ j, j < 16 → x.extractLsb' (8 * j) 8 = y.extractLsb' (8 * j) 8) : x = y := by
  ext i hi
  have byte := congrArg (·.getLsbD (i % 8)) (h (i / 8) (by omega))
  simpa [BitVec.getLsbD_extractLsb', show i % 8 < 8 by omega, show 8 * (i / 8) + i % 8 = i by omega, hi] using byte

/-- Byte k of the keystream, by its block (R75). -/
theorem keystream_byte (material : BitVec 128) (nonce : BitVec 64) (offset : Nat) {b j : Nat} (hb : b < 4) (hj : j < 16) :
    (keystream material nonce offset).extractLsb' (8 * (16 * b + j)) 8 =
      (Config.blockFunction material (counterBlock nonce offset b)).extractLsb' (8 * j) 8 := by
  ext k hk
  simp only [keystream, BitVec.getElem_extractLsb', BitVec.getLsbD_append]
  have place : 8 * (16 * b + j) + k = 128 * b + (8 * j + k) := by omega
  have small : 8 * j + k < 128 := by omega
  rw [place]
  obtain rfl | rfl | rfl | rfl : b = 0 ∨ b = 1 ∨ b = 2 ∨ b = 3 := by omega
  · simp [small]
  · rw [if_neg (by omega), if_pos (by omega)]; exact congrArg (BitVec.getLsbD _) (by omega)
  · rw [if_neg (by omega), if_neg (by omega), if_pos (by omega)]; exact congrArg (BitVec.getLsbD _) (by omega)
  · rw [if_neg (by omega), if_neg (by omega), if_neg (by omega)]; exact congrArg (BitVec.getLsbD _) (by omega)

/-! ### Counts and the frontier -/

theorem raiseFrontier_some (u v : Nat) : raiseFrontier (some u) v = if u < v then some v else some u := by
  simp only [raiseFrontier, Nat.max_def]; split <;> split <;> (congr 1; try omega)

/-- The picture frontier after an opened line: a header line raises it, and no other does (R84). -/
def frontierAfter (place : EssencePlace) (x : Unpack) : Option Nat :=
  if place.line = 0 then raiseFrontier x.frontier place.unit else x.frontier

theorem movePictureFrontier_eq (place : EssencePlace) (s : State) :
    movePictureFrontier place s = s.setUnpack { s.unpack with frontier := frontierAfter place s.unpack } := by
  unfold movePictureFrontier frontierAfter; split <;> rfl

/-! ### The line returned -/

/-- The state after the data of a read has gone upstream, the Unpack Engine left as `u`. -/
def lineReturned (r : ReadInFlight) (line : Line) (u : Unpack) (s : State) : State :=
  { s with
    path := { s.path with reads := s.path.reads.filter fun x => x.txn != r.txn }
    unpack := u
    out := { up := [.data r.txn line] } }

/-- The unit-check record that a raise leaves: filled, or its further raises counted (R82). -/
def unitCheckNoted (cause : UnitCause) (place : EssencePlace) : Option UnitCheckRecord → UnitCheckRecord
  | none => { cause := cause, unit := place.unit, reel := place.reel, further := 0 }
  | some y => { y with further := Nat.min (y.further + 1) 65535 }

theorem noteUnitCheck_eq (cause : UnitCause) (place : EssencePlace) (s : State) : noteUnitCheck cause place.unit place.reel s =
    s.setUnpack { s.unpack with unitCheck := some (unitCheckNoted cause place s.unpack.unitCheck) } := by
  unfold noteUnitCheck; cases s.unpack.unitCheck <;> rfl

theorem exec_pictureReturn {s : State} {txn : Nat} {r : ReadInFlight} (on : s.power.on = true) (h : awaitedRead s txn = some r)
    (route : r.route = .picture) (line : Line) :
    exec (.readReturn txn (.data line)) s = .next (pictureReturn r.txn r.binding line (dropRead r.txn (quiet s))) := by
  rw [exec_readReturn on h, readReturns, readData, route]

theorem pictureReturn_withheld {s : State} {r : ReadInFlight} {reason : WithheldReason}
    (h : gate .picture s r.binding = .withheld reason) (line : Line) :
    pictureReturn r.txn r.binding line (dropRead r.txn (quiet s)) =
      lineReturned r 0#512 { s.unpack with withheldPicture := bumpWithheld reason s.unpack.withheldPicture } s := by
  have gated : gate .picture (dropRead r.txn (quiet s)) r.binding = .withheld reason := h
  rw [pictureReturn, gated]; rfl

theorem pictureReturn_opened {s : State} {r : ReadInFlight} {place : EssencePlace} {nonce : BitVec 64} {material : BitVec 128}
    (h : gate .picture s r.binding = .opened place nonce material) (line : Line) :
    pictureReturn r.txn r.binding line (dropRead r.txn (quiet s)) =
      sendUp (.data r.txn (openLine r.binding nonce material line)) (movePictureFrontier place
        (checkLine place r.binding.stride (openLine r.binding nonce material line) (dropRead r.txn (quiet s)))) := by
  have gated : gate .picture (dropRead r.txn (quiet s)) r.binding = .opened place nonce material := h
  rw [pictureReturn, gated]

/-- A line that raises nothing, returned. -/
theorem lineReturned_after (s : State) (r : ReadInFlight) (place : EssencePlace) (opened : Line) (u : Unpack) :
    sendUp (.data r.txn opened) (movePictureFrontier place ((dropRead r.txn (quiet s)).setUnpack u)) =
      lineReturned r opened { u with frontier := frontierAfter place u } s := by
  rw [movePictureFrontier_eq]; rfl

/-- A line that raises UNIT_CHECK, returned: the raise moves neither the frontier nor a port (R82, R147). -/
theorem lineReturned_raised (s : State) (r : ReadInFlight) (place : EssencePlace) (opened : Line) (cause : UnitCause) (u : Unpack) :
    sendUp (.data r.txn opened)
        (movePictureFrontier place (raiseUnitCheck cause place ((dropRead r.txn (quiet s)).setUnpack u))) =
      afterRaise s.sound.ramp .unitCheck (lineReturned r opened
        { u with frontier := frontierAfter place u, unitCheck := some (unitCheckNoted cause place u.unitCheck) } s) := by
  rw [movePictureFrontier_eq, raiseUnitCheck, noteUnitCheck_eq, raiseFault_eq]; rfl

/-- An opened line goes upstream, whatever it does to the unit checks; the frontier moves as R84 says, and of the rest of the Unpack
Engine no more than the contexts, the counts of units and the unit-check record. -/
theorem pictureReturn_line {s : State} {r : ReadInFlight} {place : EssencePlace} {nonce : BitVec 64} {material : BitVec 128}
    (h : gate .picture s r.binding = .opened place nonce material) (line : Line) :
    ∃ u record, ChecksOnly s.unpack u ∧
      let returned := lineReturned r (openLine r.binding nonce material line)
        { u with frontier := frontierAfter place u, unitCheck := record } s
      (pictureReturn r.txn r.binding line (dropRead r.txn (quiet s)) = returned ∨
        pictureReturn r.txn r.binding line (dropRead r.txn (quiet s)) = afterRaise s.sound.ramp .unitCheck returned) := by
  rw [pictureReturn_opened h]
  obtain ⟨u, only, -, quietly | ⟨cause, raised⟩⟩ := checkLine_checked place r.binding.stride
    (openLine r.binding nonce material line) (dropRead r.txn (quiet s))
  · exact ⟨u, _, only, .inl (by rw [quietly]; exact lineReturned_after s r place _ u)⟩
  · exact ⟨u, _, only, .inr (by rw [raised]; exact lineReturned_raised s r place _ cause u)⟩

/-- Settles O9: the gate test by test, the read withheld, the line opened under the keystream, and the frontier. -/
theorem pictureReadReturns : Obligations.PictureReadReturns := by
  unfold Obligations.PictureReadReturns
  refine ⟨fun txn line s r on h route => ⟨fun reason withheld => ?_, fun place nonce material opened => ?_⟩, fun kind s b => ?_,
    fun s b => ⟨fun absent => mapPicture_none (reelOf_none absent), fun r e record reel => mapPicture_reel record reel⟩,
    fun reason c => by cases reason <;> rfl, fun material counter nonce offset b hb bytes j hj => ?_,
    fun v => ⟨rfl, fun u => raiseFrontier_some u v⟩⟩
  · rw [exec_pictureReturn on h route, pictureReturn_withheld withheld]; rfl
  · rw [exec_pictureReturn on h route]
    obtain ⟨u, record, only, returned⟩ := pictureReturn_line opened line
    obtain ⟨picture, sound, unmoved⟩ := only.kept
    have frontier : frontierAfter place u = frontierAfter place s.unpack := by unfold frontierAfter; rw [unmoved]
    refine ⟨_, rfl, ?_⟩
    rcases returned with returned | returned <;> rw [returned] <;>
      exact ⟨rfl, rfl, picture, sound, frontier, rfl, rfl, rfl, rfl, rfl, rfl, rfl, rfl⟩
  · have placed : mapEssence kind s b = match kind with | .picture => mapPicture s b | .sound => mapSound s b := by
      cases kind <;> rfl
    refine ⟨fun hidden => gate_state (mt (gateStateOk_iff s).mp hidden) kind b, fun showing none =>
      gate_outsideReel ((gateStateOk_iff s).mpr showing) (placed.trans none), fun r e place showing record reel some =>
        ⟨fun outside => ?_, fun inside => ?_⟩⟩
    · exact gate_window ((gateStateOk_iff s).mpr showing) (placed.trans some) (reelOf_some record reel)
        (mt (inWindow_iff r _ _).mp outside)
    · refine (gate_key ((gateStateOk_iff s).mpr showing) (placed.trans some) (reelOf_some record reel)
        ((inWindow_iff r _ _).mpr inside)).trans ((keyOpens_cases _ place b.reel).trans ?_)
      cases kind <;> rfl
  · have block : counter = counterBlock nonce offset b :=
      block_ext fun k hk => (bytes k hk).trans (counterBlock_byte nonce offset b hk).symm
    rw [block]; exact keystream_byte material nonce offset hb hj

end Sys2Proof.Machine
end

section
/-! SUPPORT. Proofs/UnitChecks.lean: what an opened picture line does to the unit checks, case by case, and the arithmetic of
headers, payload lines and the CRC-32 (R78 to R82, R165, Table 11-8). -/

namespace Sys2Proof.Machine

/-! ### The contexts, freed and claimed (R79) -/

/-- A context that tracks another unit, or is FREE, is left by a filter for the others. -/
theorem filter_other_unit {o : Option UnitContext} {unit : Nat} (h : ∀ d, o = some d → d.unit ≠ unit) :
    o.filter (fun c => c.unit ≠ unit) = o := by
  cases o with
  | none => rfl
  | some d => simp [h d rfl]

/-- The engine with a unit's context freed. -/
def unitFreed (unit : Nat) (x : Unpack) : Unpack :=
  { x with context0 := x.context0.filter fun c => c.unit ≠ unit, context1 := x.context1.filter fun c => c.unit ≠ unit }

/-- Of lawful contexts the one that tracks a unit is freed, and no other. -/
theorem freeUnit_eq {u : Unpack} (h : ContextsLawful u) (unit : Nat) : freeUnit unit u = unitFreed unit u := by
  unfold freeUnit unitFreed
  cases tracked : trackedBy u unit with
  | none =>
    have apart := trackedBy_none.mp tracked
    rw [filter_other_unit (o := u.context0) (apart false), filter_other_unit (o := u.context1) (apart true)]
  | some i =>
    obtain ⟨c, own, rfl⟩ := trackedBy_some tracked
    have freed : (contextOf u i).filter (fun d => d.unit ≠ c.unit) = none := by simp [own]
    have kept : (contextOf u (!i)).filter (fun d => d.unit ≠ c.unit) = contextOf u (!i) :=
      filter_other_unit fun d hd => h.other_unit own hd
    cases i with
    | false => exact congrArg₂ (fun c d => { u with context0 := c, context1 := d }) freed.symm kept.symm
    | true => exact congrArg₂ (fun c d => { u with context0 := c, context1 := d }) kept.symm freed.symm

theorem claimFor_tracked {u : Unpack} {unit : Nat} {i : Bool} (h : trackedBy u unit = some i) : claimFor unit u = (i, u) := by
  rw [claimFor, h]

theorem claimFor_free0 {u : Unpack} {unit : Nat} (untracked : trackedBy u unit = none) (h : u.context0 = none) :
    claimFor unit u = (false, u) := by rw [claimFor, untracked, h]; rfl

theorem claimFor_free1 {u : Unpack} {unit : Nat} (untracked : trackedBy u unit = none) (h0 : u.context0 ≠ none)
    (h1 : u.context1 = none) : claimFor unit u = (true, u) := by
  rw [claimFor, untracked, h1]; simp [h0]

/-- With both contexts taken the one that was not used last is abandoned (R79, R81). -/
theorem claimFor_full {u : Unpack} {unit : Nat} {c d : UnitContext} (untracked : trackedBy u unit = none)
    (h0 : u.context0 = some c) (h1 : u.context1 = some d) : claimFor unit u = (c.recent, abandon c.recent u) := by
  rw [claimFor, untracked, leastRecent, h0, h1]; rfl

/-! ### An opened header line (R79) -/

theorem completeUnit_true {register crc : BitVec 32} (h : crc32Finish register = crc) (place : EssencePlace) (u : Unpack)
    (s : State) : completeUnit place register crc (s.setUnpack u) =
      s.setUnpack { u with checkedUnits := Nat.min (u.checkedUnits + 1) 4294967295 } := if_pos h

theorem completeUnit_false {register crc : BitVec 32} (h : crc32Finish register ≠ crc) (place : EssencePlace) (s : State) :
    completeUnit place register crc s = raiseUnitCheck .crc place s := if_neg h

/-- The CRC-32 of no bytes (R78). -/
theorem crc32Finish_start : crc32Finish crc32Start = 0#32 := BitVec.xor_self

section
variable {place : EssencePlace} {stride : Nat} {opened : Line} {s : State}

theorem checkLine_number (lawful : ContextsLawful s.unpack) (header : place.line = 0) (false_unit : headerUnit opened ≠ place.within) :
    checkLine place stride opened s = raiseUnitCheck .number place (s.setUnpack (unitFreed place.unit s.unpack)) := by
  rw [checkLine, if_pos header, checkHeader, if_pos false_unit, freeUnit_eq lawful]

theorem checkLine_length (lawful : ContextsLawful s.unpack) (header : place.line = 0)
    (unit : headerUnit opened = place.within) (long : (stride - 1) * 64 < headerLength opened) :
    checkLine place stride opened s = raiseUnitCheck .length place (s.setUnpack (unitFreed place.unit s.unpack)) := by
  rw [checkLine, if_pos header, checkHeader, if_neg (not_not.mpr unit), if_pos long, freeUnit_eq lawful]

theorem checkLine_empty (lawful : ContextsLawful s.unpack) (header : place.line = 0)
    (truth : headerUnit opened = place.within ∧ headerLength opened ≤ (stride - 1) * 64)
    (empty : headerLength opened = 0) : checkLine place stride opened s =
      completeUnit place crc32Start (headerCrc opened) (s.setUnpack (unitFreed place.unit s.unpack)) := by
  rw [checkLine, if_pos header, checkHeader, if_neg (not_not.mpr truth.1), if_neg (Nat.not_lt.mpr truth.2), if_pos empty,
    freeUnit_eq lawful]

theorem checkLine_claims (header : place.line = 0)
    (truth : headerUnit opened = place.within ∧ headerLength opened ≤ (stride - 1) * 64)
    (payload : headerLength opened ≠ 0) {i : Bool} {u : Unpack} (claim : claimFor place.unit s.unpack = (i, u)) :
    checkLine place stride opened s = s.setUnpack
      (useContext i (freshContext place.unit (headerLength opened) (headerCrc opened)) u) := by
  rw [checkLine, if_pos header, checkHeader, if_neg (not_not.mpr truth.1), if_neg (Nat.not_lt.mpr truth.2), if_neg payload,
    claimContext, claim]

/-! ### An opened payload line (R80, R81) -/

theorem checkLine_untracked (payload : place.line ≠ 0) (h : trackedBy s.unpack place.unit = none) :
    checkLine place stride opened s = s := by
  rw [checkLine, if_neg payload, h]

theorem checkLine_tracked (payload : place.line ≠ 0) (lawful : ContextsLawful s.unpack) {i : Bool} {c : UnitContext}
    (own : contextOf s.unpack i = some c) (unit : c.unit = place.unit) :
    checkLine place stride opened s = checkPayload place i c opened s := by
  have tracked : trackedBy s.unpack place.unit = some i := unit ▸ lawful.trackedBy own
  rw [checkLine, if_neg payload, tracked]; dsimp only; rw [own]

theorem checkPayload_early {i : Bool} {c : UnitContext} (h : place.line ≠ c.expectedLine) :
    checkPayload place i c opened s = s.setUnpack (abandon i s.unpack) := if_neg h

theorem checkPayload_onward {i : Bool} {c : UnitContext} (h : place.line = c.expectedLine)
    (more : c.expectedLine ≠ payloadLines c.length) : checkPayload place i c opened s = s.setUnpack
      (useContext i { c with expectedLine := c.expectedLine + 1, register := foldLine c opened } s.unpack) := by
  rw [checkPayload, if_pos h, if_neg more]

theorem checkPayload_last {i : Bool} {c : UnitContext} (h : place.line = c.expectedLine ∧ c.expectedLine = payloadLines c.length) :
    checkPayload place i c opened s =
      completeUnit place (foldLine c opened) c.crc (s.setUnpack (putContext i none s.unpack)) := by
  rw [checkPayload, if_pos h.1, if_pos h.2]
end

/-! ### Headers, payload lines, the CRC-32 (R78, Table 11-8) -/

theorem headerFields_eq (opened : Line) : headerUnit opened = opened.toNat % 2 ^ 32 ∧
    headerLength opened = opened.toNat / 2 ^ 32 % 2 ^ 32 ∧ (headerCrc opened).toNat = opened.toNat / 2 ^ 64 % 2 ^ 32 := by
  refine ⟨?_, lineField_eq opened 4 4, ?_⟩
  · rw [headerUnit, lineField_eq, Nat.mul_zero, Nat.pow_zero, Nat.div_one]
  · rw [headerCrc, BitVec.extractLsb'_toNat, Nat.shiftRight_eq_div_pow]

/-- A payload of n bytes has ceil(n / 64) lines. -/
theorem payloadLines_bounds (n : Nat) : n ≤ 64 * payloadLines n ∧ 64 * payloadLines n < n + 64 := by
  unfold payloadLines; omega

theorem payloadBytes_full {n j : Nat} (h : j < payloadLines n) : payloadBytes n j = 64 := if_pos h

/-- The last line carries what the lines before it have left. -/
theorem payloadBytes_last {n j : Nat} (one : 1 ≤ j) (h : j = payloadLines n) : payloadBytes n j + 64 * (j - 1) = n := by
  have := payloadLines_bounds n
  rw [payloadBytes, if_neg (by omega)]; omega

/-- The register after a payload line: its bytes in order, each in eight shifts. -/
theorem foldLine_eq (c : UnitContext) (opened : Line) : foldLine c opened =
    (List.range (payloadBytes c.length c.expectedLine)).foldl
      (fun r k => crc32Shift^[8] (r ^^^ (lineByte opened k).setWidth 32)) c.register := by
  rw [foldLine, crc32Fold, lineBytes, List.foldl_map]; rfl

/-! ### The line returned -/

section
variable {s : State} {r : ReadInFlight} {place : EssencePlace} {opened : Line} {u : Unpack}

/-- A line that raises nothing leaves the Unpack Engine as the checks do, with the frontier moved. -/
theorem returned_after (h : checkLine place r.binding.stride opened (dropRead r.txn (quiet s)) =
      (dropRead r.txn (quiet s)).setUnpack u) :
    sendUp (.data r.txn opened) (movePictureFrontier place
        (checkLine place r.binding.stride opened (dropRead r.txn (quiet s)))) =
      lineReturned r opened { u with frontier := frontierAfter place u } s := by
  rw [h]; exact lineReturned_after s r place opened u

/-- A line that raises UNIT_CHECK does the same, with the record noted, and then what the raise does. -/
theorem returned_raised {cause : UnitCause} (h : checkLine place r.binding.stride opened (dropRead r.txn (quiet s)) =
      raiseUnitCheck cause place ((dropRead r.txn (quiet s)).setUnpack u)) :
    sendUp (.data r.txn opened) (movePictureFrontier place
        (checkLine place r.binding.stride opened (dropRead r.txn (quiet s)))) =
      afterRaise s.sound.ramp .unitCheck (lineReturned r opened
        { u with frontier := frontierAfter place u, unitCheck := some (unitCheckNoted cause place u.unitCheck) } s) := by
  rw [h]; exact lineReturned_raised s r place opened cause u

/-- A payload line of the unit that one of the contexts tracks: out of turn, in turn, and the last with a CRC-32 that agrees or does
not (R80, R81). -/
theorem payloadLine_returned (payload : place.line ≠ 0) (lawful : ContextsLawful s.unpack) {i : Bool} {c : UnitContext}
    (own : contextOf s.unpack i = some c) (unit : c.unit = place.unit) :
    let t := sendUp (.data r.txn opened) (movePictureFrontier place
      (checkLine place r.binding.stride opened (dropRead r.txn (quiet s))))
    let after (u : Unpack) : Prop := t = lineReturned r opened { u with frontier := frontierAfter place u } s
    let freed := putContext i none s.unpack
    let last := place.line = c.expectedLine ∧ c.expectedLine = payloadLines c.length
    (place.line ≠ c.expectedLine → after (abandon i s.unpack)) ∧
    (place.line = c.expectedLine → c.expectedLine ≠ payloadLines c.length →
      after (useContext i { c with expectedLine := c.expectedLine + 1, register := foldLine c opened } s.unpack)) ∧
    (last → crc32Finish (foldLine c opened) = c.crc →
      after { freed with checkedUnits := Nat.min (freed.checkedUnits + 1) 4294967295 }) ∧
    (last → crc32Finish (foldLine c opened) ≠ c.crc → t = afterRaise s.sound.ramp .unitCheck (lineReturned r opened
      { freed with
        frontier := frontierAfter place freed, unitCheck := some (unitCheckNoted .crc place freed.unitCheck) } s)) := by
  have tracked := checkLine_tracked (s := dropRead r.txn (quiet s)) (stride := r.binding.stride) (opened := opened)
    payload lawful own unit
  refine ⟨fun early => ?_, fun turn more => ?_, fun last crc => ?_, fun last crc => ?_⟩
  · exact returned_after (tracked.trans (checkPayload_early early))
  · exact returned_after (tracked.trans (checkPayload_onward turn more))
  · exact returned_after (tracked.trans ((checkPayload_last last).trans (completeUnit_true crc place _ _)))
  · exact returned_raised (tracked.trans ((checkPayload_last last).trans (completeUnit_false crc place _)))
end

/-- Settles O10: the header line by its fields and the contexts it finds, the payload line by the context that tracks its unit. -/
theorem pictureUnitsAreChecked : Obligations.PictureUnitsAreChecked := by
  unfold Obligations.PictureUnitsAreChecked
  refine ⟨fun txn line s r place nonce material on h route gated contexts => ?_, headerFields_eq,
    fun n => ⟨(payloadLines_bounds n).1, (payloadLines_bounds n).2, fun j one => ⟨payloadBytes_full, payloadBytes_last one⟩⟩,
    foldLine_eq⟩
  have lawful : ContextsLawful (dropRead r.txn (quiet s)).unpack := (contextsOk_iff s).mp contexts
  have untracked (no0 : ¬ ∃ d, s.unpack.context0 = some d ∧ d.unit = place.unit)
      (no1 : ¬ ∃ d, s.unpack.context1 = some d ∧ d.unit = place.unit) : trackedBy s.unpack place.unit = none :=
    trackedBy_none.mpr fun i d hd same => by
      cases i with
      | false => exact no0 ⟨d, hd, same⟩
      | true => exact no1 ⟨d, hd, same⟩
  refine ⟨_, (exec_pictureReturn on h route line).trans (congrArg _ (pictureReturn_opened gated line)),
    fun header => ⟨fun number => ?_, fun unit long => ?_, fun truth empty crc => ?_, fun truth empty crc => ?_,
      fun truth some_payload => ?_⟩, fun payload => ⟨fun no0 no1 => ?_, fun c unit => ⟨fun own => ?_, fun own => ?_⟩⟩⟩
  · exact returned_raised (checkLine_number lawful header number)
  · exact returned_raised (checkLine_length lawful header unit long)
  · have complete := completeUnit_true (crc32Finish_start.trans crc.symm) place
    exact returned_after ((checkLine_empty lawful header truth empty).trans (complete _ _))
  · have incomplete := completeUnit_false (fun c => crc (c.symm.trans crc32Finish_start)) place
    exact returned_raised ((checkLine_empty lawful header truth empty).trans (incomplete _))
  · have claims {i : Bool} {u : Unpack} (claim : claimFor place.unit s.unpack = (i, u)) :=
      returned_after (checkLine_claims (s := dropRead r.txn (quiet s)) header truth some_payload claim)
    refine ⟨fun ⟨d, own, unit⟩ => ?_, fun ⟨d, own, unit⟩ => ?_, fun no0 no1 => ⟨fun free => ?_, fun taken free => ?_,
      fun c d h0 h1 => ?_⟩⟩
    · exact claims (claimFor_tracked (unit ▸ lawful.trackedBy (i := false) own))
    · exact claims (claimFor_tracked (unit ▸ lawful.trackedBy (i := true) own))
    · exact claims (claimFor_free0 (untracked no0 no1) free)
    · exact claims (claimFor_free1 (untracked no0 no1) taken free)
    · refine (claims (claimFor_full (untracked no0 no1) h0 h1)).trans ?_
      cases c.recent <;> rfl
  · exact returned_after (u := s.unpack) (checkLine_untracked payload (untracked no0 no1))
  · obtain ⟨early, onward, last, wrong⟩ := payloadLine_returned (s := s) (r := r)
      (opened := openLine r.binding nonce material line) payload lawful (i := false) own unit
    exact ⟨early, onward, last, wrong⟩
  · obtain ⟨early, onward, last, wrong⟩ := payloadLine_returned (s := s) (r := r)
      (opened := openLine r.binding nonce material line) payload lawful (i := true) own unit
    exact ⟨early, onward, last, wrong⟩

end Sys2Proof.Machine
end

section
/-! SUPPORT. Proofs/SoundReads.lean: the return of a sound read: where it maps, the line that the Sound Stage forms, the gain, and
the words of a sound line (R71, R87, R88, R91, R96, Table 11-7). -/

namespace Sys2Proof.Machine

/-! ### Places and lines (R71, R87) -/

theorem mapSound_none {s : State} {b : Binding} (h : reelOf s b.reel = none) : mapSound s b = none := by
  rw [mapSound, h]; rfl

theorem mapSound_reel {s : State} {b : Binding} {r : ShowRecord} {e : Reel} (record : s.ctl.record = some r)
    (reel : r.reels[b.reel]? = some e) :
    let start := ((r.reels.take b.reel).map (·.duration)).sum
    mapSound s b = if b.entry = some e.soundRegion ∧ b.offset < e.duration * samplesPerUnit r then
      some { reel := b.reel, within := b.offset / samplesPerUnit r, unit := start + b.offset / samplesPerUnit r, line := 0
             sample := start * samplesPerUnit r + b.offset }
    else none := by
  rw [mapSound, reelOf_some record reel, ← reelStart_of_reel reel]; rfl

theorem channelCount_eq {s : State} {r : ShowRecord} (record : s.ctl.record = some r) : channelCount s = r.channels := by
  rw [channelCount, record]

/-- A word of the returned line: silence for a channel that the show has not or that is muted, else the sample at the gain. -/
theorem soundLine_word (channels : Nat) (mask : BitVec 16) (gain : Nat) (opened : Line) {c : Nat} (h : c < 16) :
    lineWord (soundLine channels mask gain opened) c =
      if channels ≤ c ∨ mask.getLsbD c = true then 0#32
      else soundWord (Int.fdiv (soundSample (lineWord opened c) * gain) 32768) := by
  rw [soundLine, lineWord_fn _ c h]
  split <;> rfl

/-! ### The gain (R91) -/

theorem gainAt_before {ramp : GainRamp} {sample : Nat} (h : sample < ramp.startSample) : gainAt ramp sample = ramp.startGain :=
  if_pos h

theorem gainAt_after {ramp : GainRamp} {sample : Nat} (begun : ramp.startSample ≤ sample)
    (past : ramp.length = 0 ∨ ramp.startSample + ramp.length ≤ sample) : gainAt ramp sample = targetGain ramp.target := by
  rw [gainAt, if_neg (Nat.not_lt.mpr begun), if_pos past]

/-- The truncated part of a way is no longer than the way. -/
theorem natAbs_tdiv_le (d : Int) {n l : Int} (begun : 0 ≤ n) (within : n ≤ l) : (Int.tdiv (d * n) l).natAbs ≤ d.natAbs := by
  rw [Int.natAbs_tdiv, Int.natAbs_mul]
  refine Nat.div_le_of_le_mul ?_
  rw [Nat.mul_comm]
  exact Nat.mul_le_mul_right _ (by omega)

/-- Between its ends a ramp has covered the truncated part of its way. -/
theorem gainAt_between {ramp : GainRamp} {sample : Nat} (begun : ramp.startSample ≤ sample)
    (within : sample < ramp.startSample + ramp.length) (range : ramp.startGain ≤ 32768) :
    (gainAt ramp sample : Int) = ramp.startGain +
      Int.tdiv (((targetGain ramp.target : Int) - ramp.startGain) * ((sample : Int) - ramp.startSample)) ramp.length := by
  rw [gainAt, if_neg (Nat.not_lt.mpr begun), if_neg (by omega), Int.toNat_of_nonneg]
  cases ramp.target with
  | silence =>
    have fallen := natAbs_tdiv_le ((targetGain .silence : Int) - ramp.startGain) (n := (sample : Int) - ramp.startSample)
      (l := ramp.length) (by omega) (by omega)
    simp only [targetGain] at fallen ⊢
    omega
  | unity =>
    refine Int.add_nonneg (Int.natCast_nonneg _) (Int.tdiv_nonneg (Int.mul_nonneg ?_ ?_) (Int.natCast_nonneg _))
    · simp only [targetGain]; omega
    · omega

/-! ### Sound words (Table 11-7) -/

/-- The sample of a word: its upper 24 bits, signed. -/
theorem soundSample_eq (w : BitVec 32) : soundSample w =
    if w.getLsbD 31 = true then ((w.toNat / 256 : Nat) : Int) - 16777216 else ((w.toNat / 256 : Nat) : Int) := by
  have sign : (w.extractLsb' 8 24).msb = w.getLsbD 31 := by simp [BitVec.msb_eq_getLsbD_last]
  have size : (w.extractLsb' 8 24).toNat = w.toNat / 256 := by
    have := w.isLt
    rw [BitVec.extractLsb'_toNat, Nat.shiftRight_eq_div_pow]; omega
  rw [soundSample, BitVec.toInt_eq_msb_cond, sign, size]
  split <;> rfl

/-- A sample of 24 bits is read back from its word, whose low byte is zero. -/
theorem soundWord_sample {v : Int} (low : -8388608 ≤ v) (high : v ≤ 8388607) :
    soundSample (soundWord v) = v ∧ (soundWord v).extractLsb' 0 8 = 0#8 := by
  refine ⟨?_, extract_below _ _⟩
  have upper : (soundWord v).extractLsb' 8 24 = BitVec.ofInt 24 v :=
    (extract_above (BitVec.ofInt 24 v) 0#8 0 24).trans BitVec.extractLsb'_eq_self
  rw [soundSample, upper, BitVec.toInt_ofInt]
  exact Int.bmod_eq_of_le (by omega) (by omega)

/-! ### The line returned -/

theorem exec_soundReturn {s : State} {txn : Nat} {r : ReadInFlight} (on : s.power.on = true) (h : awaitedRead s txn = some r)
    (route : r.route = .sound) (line : Line) :
    exec (.readReturn txn (.data line)) s = .next (soundReturn r.txn r.binding line (dropRead r.txn (quiet s))) := by
  rw [exec_readReturn on h, readReturns, readData, route]

theorem soundReturn_withheld {s : State} {r : ReadInFlight} {reason : WithheldReason}
    (h : gate .sound s r.binding = .withheld reason) (line : Line) :
    soundReturn r.txn r.binding line (dropRead r.txn (quiet s)) =
      lineReturned r 0#512 { s.unpack with withheldSound := bumpWithheld reason s.unpack.withheldSound } s := by
  have gated : gate .sound (dropRead r.txn (quiet s)) r.binding = .withheld reason := h
  rw [soundReturn, gated]; rfl

theorem soundReturn_opened {s : State} {r : ReadInFlight} {place : EssencePlace} {nonce : BitVec 64} {material : BitVec 128}
    (h : gate .sound s r.binding = .opened place nonce material) (line : Line) :
    soundReturn r.txn r.binding line (dropRead r.txn (quiet s)) =
      lineReturned r (soundReturned s place.sample (openLine r.binding nonce material line)) s.unpack
        (moveSoundFrontier place.sample s) := by
  have gated : gate .sound (dropRead r.txn (quiet s)) r.binding = .opened place nonce material := h
  rw [soundReturn, gated]; rfl

/-- Settles O11: the read withheld, the line formed at the gain, the place of a sound read, the rows of the gain, and the words. -/
theorem soundReadReturns : Obligations.SoundReadReturns := by
  unfold Obligations.SoundReadReturns
  refine ⟨fun txn line s r on h route => ⟨fun reason withheld => ?_, fun place nonce material opened => ?_⟩,
    fun channels mask gain opened c hc => soundLine_word channels mask gain opened hc,
    fun s b => ⟨fun absent => mapSound_none (reelOf_none absent), fun r e record reel => mapSound_reel record reel⟩,
    fun ramp sample => ?_, fun v gain range => sample_le v gain range, soundSample_eq,
    fun v low high => soundWord_sample low high, fun s r record => channelCount_eq record⟩
  · rw [exec_soundReturn on h route, soundReturn_withheld withheld]; rfl
  · rw [exec_soundReturn on h route, soundReturn_opened opened]; rfl
  · exact ⟨gainAt_before, gainAt_after, gainAt_between, gain_le ramp sample⟩

end Sys2Proof.Machine
end

section
/-! SUPPORT. Proofs/Masks.lean: the requests with no check of their own, SET MUTE, LANE ENABLE, ACK EVENTS and WRITE EVENTS (R89, R118,
R162, R163). -/

namespace Sys2Proof.Machine

/-- A request with no check of its own is carried out when it is received, its bytes acknowledged (R157). -/
theorem request_taken {s t : State} {n : Nat} {f : State → State} (linked : Linked s) (h : acknowledging n (f (quiet s)) = t) :
    (.next (onLink n s f) : Host.Outcome State Fault Refusal) = .next t := by
  rw [onLink_linked linked, h]

/-- In RUNNING the active mask waits for the next advance; else it is the new mask at once (R89). -/
theorem exec_setMute {s : State} (linked : Linked s) (m : BitVec 16) : exec (.setMute m) s = .next { s with
    sound := { s.sound with pendingMask := m, activeMask := if s.ctl.state = .running then s.sound.activeMask else m }
    link := answered s.link .ok 0
    out := { acked := 8 } } := by
  refine request_taken linked ?_
  by_cases running : s.ctl.state = .running
  · simp [isRunning, running]; rfl
  · simp [isRunning, running]; rfl

theorem exec_laneEnable {s : State} (linked : Linked s) (b : Byte) : exec (.laneEnable b) s = .next { s with
    overlay := { s.overlay with enableA := b.getLsbD 0, enableB := b.getLsbD 1 }
    link := answered s.link .ok 0
    out := { acked := 7 } } :=
  request_taken linked rfl

theorem exec_ackEvents {s : State} (linked : Linked s) (m : Byte) : exec (.ackEvents m) s = .next { s with
    link := { answered s.link .ok 0 with eventPending := s.link.eventPending &&& ~~~(m.setWidth 7) }
    out := { acked := 7 } } :=
  request_taken linked rfl

theorem exec_writeEvents {s : State} (linked : Linked s) (enables selects : Byte) :
    exec (.writeEvents enables selects) s = .next { s with
      link := { answered s.link .ok 0 with eventEnables := enables.setWidth 7, eventSelects := selects.setWidth 7 }
      out := { acked := 10 } } :=
  request_taken linked rfl

/-- A byte's bit of one of the seven events (Table 11-4). -/
theorem eventMask_getLsbD (m : Byte) {e : Nat} (h : e < 7) : (m.setWidth 7).getLsbD e = m.getLsbD e := by
  rw [BitVec.getLsbD_setWidth, decide_eq_true h, Bool.true_and]

/-- The events that a byte names lose their pending flag, and no other does (R162). -/
theorem ackedPending_getLsbD (p : BitVec 7) (m : Byte) {e : Nat} (h : e < 7) :
    (p &&& ~~~(m.setWidth 7)).getLsbD e = (p.getLsbD e && !m.getLsbD e) := by
  rw [BitVec.getLsbD_and, BitVec.getLsbD_not, eventMask_getLsbD m h, decide_eq_true h, Bool.true_and]

/-- Settles O47: the state after each of the four requests, and the bits of the event masks. -/
theorem maskCommandsAreTaken : Obligations.MaskCommandsAreTaken := by
  unfold Obligations.MaskCommandsAreTaken
  exact fun s linked => ⟨exec_setMute linked, exec_laneEnable linked,
    fun m => ⟨_, exec_ackEvents linked m, fun _ h => ackedPending_getLsbD s.link.eventPending m h⟩,
    fun enables selects => ⟨_, _, exec_writeEvents linked enables selects,
      fun _ h => ⟨eventMask_getLsbD enables h, eventMask_getLsbD selects h⟩⟩⟩

end Sys2Proof.Machine
end

section
/-! SUPPORT. Proofs/FaultsCleared.lean: CLEAR_FAULTS: the fault entry of each kind, the two records that go with a kind, the ramp at the
output's return to OPEN, and how many kinds can be kept (R94, R145, R152). -/

namespace Sys2Proof.Machine

/-! ### Kinds cleared one after the other -/

/-- The fault entry of a kind after CLEAR FAULTS (R152): a kind named that is not kept loses its flag and its latch. -/
def clearedEntry (mask : BitVec 16) (k : FaultKind) (e : FaultEntry) : FaultEntry :=
  if named mask k && !(isConditionKind k && e.condition) then { e with flag := false, latched := false } else e

/-- The fault table after the kinds of a list are cleared one after the other. -/
def clearedFaults (mask : BitVec 16) (kinds : List FaultKind) (faults : Vector FaultEntry 9) : Vector FaultEntry 9 :=
  kinds.foldl (fun v k => vput v (faultIndex k) (clearedEntry mask k v[faultIndex k])) faults

/-- The state after the kinds of a list are cleared, as one state: the fault table and the two records that go with a kind. -/
def kindsCleared (mask : BitVec 16) (kinds : List FaultKind) (s : State) : State := { s with
  path := { s.path with access := if .access ∈ kinds ∧ named mask .access = true then none else s.path.access }
  unpack := { s.unpack with
    unitCheck := if .unitCheck ∈ kinds ∧ named mask .unitCheck = true then none else s.unpack.unitCheck }
  sup := { s.sup with faults := clearedFaults mask kinds s.sup.faults } }

theorem emptyRecord_eq (k : FaultKind) (s : State) : emptyRecord k s = { s with
    path := { s.path with access := if .access = k then none else s.path.access }
    unpack := { s.unpack with unitCheck := if .unitCheck = k then none else s.unpack.unitCheck } } := by
  cases k <;> rfl

/-- One kind's clearing.  A kind that has a record is no condition kind, so that it is cleared whenever it is named. -/
theorem clearKind_eq (mask : BitVec 16) (s : State) (k : FaultKind) : clearKind mask s k = kindsCleared mask [k] s := by
  by_cases h : (named mask k && !kept s k) = true
  · have isNamed : named mask k = true := (Bool.and_eq_true_iff.mp h).1
    have record (m : FaultKind) : (m ∈ [k] ∧ named mask m = true) = (m = k) := by
      rw [List.mem_singleton]
      exact propext ⟨And.left, fun same => ⟨same, same ▸ isNamed⟩⟩
    have entry : clearedEntry mask k s.sup.faults[faultIndex k] =
        { faultOf s k with flag := false, latched := false } := if_pos h
    rw [clearKind, if_pos h, emptyRecord_eq, kindsCleared, clearedFaults, List.foldl_cons, List.foldl_nil, entry]
    simp only [record]; rfl
  · have record (m : FaultKind) (plain : isConditionKind m = false) : ¬ (m ∈ [k] ∧ named mask m = true) := by
      rintro ⟨same, isNamed⟩
      obtain rfl := List.mem_singleton.mp same
      exact h (by simp [isNamed, kept, plain])
    have entry : clearedEntry mask k s.sup.faults[faultIndex k] = s.sup.faults[faultIndex k] := if_neg h
    rw [clearKind, if_neg h, kindsCleared, if_neg (record .access rfl), if_neg (record .unitCheck rfl), clearedFaults,
      List.foldl_cons, List.foldl_nil, entry, vput_same]

theorem kindsCleared_cons (mask : BitVec 16) (k : FaultKind) (kinds : List FaultKind) (s : State) :
    kindsCleared mask kinds (kindsCleared mask [k] s) = kindsCleared mask (k :: kinds) s := by
  have record {α : Type} (m : FaultKind) (x : Option α) :
      (if m ∈ kinds ∧ named mask m = true then none else if m ∈ [k] ∧ named mask m = true then none else x) =
        if m ∈ k :: kinds ∧ named mask m = true then none else x := by
    rw [← ite_or]
    exact if_congr (by rw [← or_and_right, List.mem_singleton, List.mem_cons, or_comm]) rfl rfl
  unfold kindsCleared
  rw [← record, ← record]; rfl

theorem clearKinds_eq (mask : BitVec 16) (kinds : List FaultKind) (s : State) :
    kinds.foldl (clearKind mask) s = kindsCleared mask kinds s := by
  induction kinds generalizing s with
  | nil => simp [kindsCleared, clearedFaults]
  | cons k kinds ih => rw [List.foldl_cons, ih, clearKind_eq, kindsCleared_cons]

/-! ### The entry of each kind -/

/-- A kind cleared once is left by a second clearing. -/
theorem clearedEntry_idem (mask : BitVec 16) (k : FaultKind) (e : FaultEntry) :
    clearedEntry mask k (clearedEntry mask k e) = clearedEntry mask k e := by
  by_cases h : (named mask k && !(isConditionKind k && e.condition)) = true
  · have once : clearedEntry mask k e = { e with flag := false, latched := false } := if_pos h
    rw [once]; exact if_pos h
  · rw [show clearedEntry mask k e = e from if_neg h]; exact if_neg h

/-- Each kind of the list is cleared by its own entry alone, and every other kind is unchanged. -/
theorem clearedFaults_get (mask : BitVec 16) (kinds : List FaultKind) (faults : Vector FaultEntry 9) (m : FaultKind) :
    (clearedFaults mask kinds faults)[faultIndex m] =
      if m ∈ kinds then clearedEntry mask m faults[faultIndex m] else faults[faultIndex m] := by
  induction kinds generalizing faults with
  | nil => rfl
  | cons k kinds ih =>
    refine (ih _).trans ?_
    by_cases same : k = m
    · subst same
      rw [vput_get_self, clearedEntry_idem, ite_self, if_pos List.mem_cons_self]
    · rw [vput_get_other _ _ fun e => same (faultIndex_injective e)]
      simp [Ne.symm same]

theorem faultOf_kindsCleared (mask : BitVec 16) (s : State) (k : FaultKind) :
    faultOf (kindsCleared mask allKinds s) k = clearedEntry mask k (faultOf s k) := by
  rw [faultOf, kindsCleared, clearedFaults_get, if_pos (mem_allKinds k)]; rfl

/-! ### The records -/

/-- ACCESS named loses its record (R152). -/
theorem kindsCleared_path (mask : BitVec 16) (s : State) : (kindsCleared mask allKinds s).path =
    if named mask .access then { s.path with access := none } else s.path := by
  unfold kindsCleared; dsimp only
  by_cases isNamed : named mask .access = true
  · rw [if_pos ⟨mem_allKinds _, isNamed⟩, if_pos isNamed]
  · rw [if_neg fun c => isNamed c.2, if_neg isNamed]

/-- UNIT_CHECK named loses its record (R152). -/
theorem kindsCleared_unpack (mask : BitVec 16) (s : State) : (kindsCleared mask allKinds s).unpack =
    if named mask .unitCheck then { s.unpack with unitCheck := none } else s.unpack := by
  unfold kindsCleared; dsimp only
  by_cases isNamed : named mask .unitCheck = true
  · rw [if_pos ⟨mem_allKinds _, isNamed⟩, if_pos isNamed]
  · rw [if_neg fun c => isNamed c.2, if_neg isNamed]

/-! ### The kinds kept, and the ramp -/

/-- At most five kinds are kept: the condition kinds (R145). -/
theorem keptCount_le (mask : BitVec 16) (s : State) : keptCount mask s ≤ 5 := by
  have onlyConditions : ∀ k ∈ allKinds, (named mask k && kept s k) = true → isConditionKind k = true := by
    simp +contextual [kept]
  calc keptCount mask s = allKinds.countP fun k => named mask k && kept s k := List.countP_eq_length_filter.symm
    _ ≤ allKinds.countP isConditionKind := List.countP_mono_left onlyConditions
    _ = 5 := by decide

/-- The output's return to OPEN ramps the sound of a RUNNING show to unity (R94). -/
theorem outputReturned_eq (b : GainRamp) (s : State) : outputReturned b s = { s with
    sound := if s.ctl.state = .running then { s.sound with ramp := rampTo { s.sound with ramp := b } .unity } else s.sound } := by
  unfold outputReturned isRunning
  by_cases h : s.ctl.state = .running
  · simp [h, startRamp_sound]
  · simp [h]

/-! ### CLEAR FAULTS as one state -/

/-- The sound after CLEAR FAULTS, by the output condition that it leaves (R94, R152). -/
def clearedSound (s t : State) : Sound :=
  if outputCondition s ≠ .openOutput ∧ outputCondition t = .openOutput ∧ s.ctl.state = .running then
    { s.sound with ramp := rampTo s.sound .unity }
  else s.sound

theorem faultsCleared_eq (mask : BitVec 16) (s : State) : faultsCleared mask s = { kindsCleared mask allKinds s with
    sound := clearedSound s (kindsCleared mask allKinds s)
    link := answered s.link .ok (keptCount mask s) } := by
  unfold faultsCleared
  rw [clearKinds_eq]; dsimp only
  rw [outputReturned_eq, show (kindsCleared mask allKinds s).ctl = s.ctl from rfl]
  by_cases returns : outputCondition s ≠ .openOutput ∧ outputCondition (kindsCleared mask allKinds s) = .openOutput
  · have sound : clearedSound s (kindsCleared mask allKinds s) =
        if s.ctl.state = .running then { s.sound with ramp := rampTo s.sound .unity } else s.sound :=
      if_congr ⟨fun c => c.2.2, fun running => ⟨returns.1, returns.2, running⟩⟩ rfl rfl
    rw [if_pos returns, sound]; rfl
  · have sound : clearedSound s (kindsCleared mask allKinds s) = s.sound := if_neg fun c => returns ⟨c.1, c.2.1⟩
    rw [if_neg returns, sound]; rfl

theorem exec_clearFaults {s : State} (linked : Linked s) (mask : BitVec 16) : exec (.clearFaults mask) s = .next
    { kindsCleared mask allKinds s with
      sound := clearedSound s (kindsCleared mask allKinds s)
      link := answered s.link .ok (keptCount mask s)
      out := { acked := 8 } } :=
  request_taken linked (by rw [faultsCleared_eq]; rfl)

/-- The rows of R145's table: the index of each kind, and the five condition kinds. -/
theorem faultKinds_table (k : FaultKind) : allKinds[(faultIndex k).val]? = some k ∧
    (isConditionKind k = true ↔ k ∈ [FaultKind.syncLoss, .pictureStarved, .soundStarved, .keyLapsed, .watchdog]) := by
  cases k <;> decide

/-- Settles O43: every kind by its own entry, the records and the count of what is kept, and the ramp. -/
theorem clearFaultsKeepsActiveConditions : Obligations.ClearFaultsKeepsActiveConditions := by
  unfold Obligations.ClearFaultsKeepsActiveConditions
  exact ⟨fun mask s linked => ⟨_, exec_clearFaults linked mask, faultOf_kindsCleared mask s, rfl, keptCount_le mask s,
      kindsCleared_path mask s, kindsCleared_unpack mask s, rfl, rfl, rfl, rfl, rfl, rfl, rfl, rfl, rfl, rfl, rfl, rfl, rfl, rfl,
      rfl⟩,
    rfl, faultKinds_table⟩

end Sys2Proof.Machine
end

section
/-! SUPPORT. Proofs/CueArrival.lean: the arrival of a cue at a lane, case by case, and activation, step by step (R102, R106 to R109,
R111, R112). -/

namespace Sys2Proof.Machine

/-! ### Arrival (R107, R108) -/

/-- R107: an update of the active cue. -/
theorem laneArrive_updates {x : Lane} {a : ActiveCue} {c : Cue} (active : x.active = some a) (same : a.cue.number = c.number)
    (playing : Bool) (p : Nat) : laneArrive playing p c x =
      ({ x with
          active := some { a with update := some { outUnit := c.outUnit, fadeDown := c.fadeDown } }
          counts := { x.counts with updated := satInc Config.max16 x.counts.updated } }, false) := by
  simp only [laneArrive, active, if_pos same]

/-- A cue that is no update of the active cue goes to the four cases of R108. -/
theorem laneArrive_queued {x : Lane} {c : Cue} (other : ∀ a, x.active = some a → a.cue.number ≠ c.number) (playing : Bool)
    (p : Nat) : laneArrive playing p c x = laneArrive.arriveQueued playing p c x := by
  cases active : x.active with
  | none => simp only [laneArrive, active]
  | some a => simp only [laneArrive, active, if_neg (other a active)]

theorem numberQueued_iff (x : Lane) (c : Cue) :
    (x.queue.any fun d => d.number == c.number) = true ↔ ∃ d ∈ x.queue, d.number = c.number := by
  simp only [List.any_eq_true, beq_iff_eq]

/-- R108, case 1: a queued number is replaced. -/
theorem arriveQueued_replaces {x : Lane} {c : Cue} (queued : ∃ d ∈ x.queue, d.number = c.number) (playing : Bool) (p : Nat) :
    laneArrive.arriveQueued playing p c x =
      ({ x with
          queue := insertCue c (x.queue.filter fun d => d.number != c.number)
          counts := { x.counts with replaced := satInc Config.max16 x.counts.replaced } }, false) := by
  rw [laneArrive.arriveQueued, if_pos ((numberQueued_iff x c).mpr queued)]

section FreshNumber
variable {x : Lane} {c : Cue} {playing : Bool} {p : Nat} (fresh : ∀ d ∈ x.queue, d.number ≠ c.number)
include fresh

theorem number_not_queued : ¬ (x.queue.any fun d => d.number == c.number) = true := fun queued =>
  have ⟨d, member, same⟩ := (numberQueued_iff x c).mp queued
  fresh d member same

/-- R108, case 2: a cue over by p is late. -/
theorem arriveQueued_late (play : playing = true) (past : c.outUnit ≤ p) : laneArrive.arriveQueued playing p c x =
    ({ x with counts := { x.counts with late := satInc Config.max16 x.counts.late } }, false) := by
  rw [laneArrive.arriveQueued, if_neg (number_not_queued fresh), if_pos ⟨play, past⟩]

variable (timely : playing = false ∨ p < c.outUnit)
include timely

omit fresh in
theorem not_late : ¬ (playing = true ∧ c.outUnit ≤ p) := by
  rintro ⟨play, past⟩
  rcases timely with stopped | before
  · exact absurd (stopped.symm.trans play) Bool.false_ne_true
  · exact absurd past (Nat.not_le.mpr before)

/-- R108, case 3: a full queue drops the cue, which raises CUE_OVERRUN (R112). -/
theorem arriveQueued_overruns (full : 16 ≤ x.queue.length) : laneArrive.arriveQueued playing p c x =
    ({ x with counts := { x.counts with overrun := satInc Config.max16 x.counts.overrun } }, true) := by
  rw [laneArrive.arriveQueued, if_neg (number_not_queued fresh), if_neg (not_late timely), if_pos full]

/-- R108, case 4: the cue is inserted. -/
theorem arriveQueued_inserts (room : x.queue.length < 16) : laneArrive.arriveQueued playing p c x =
    ({ x with
        queue := insertCue c x.queue
        counts := { x.counts with inserted := satInc Config.max16 x.counts.inserted } }, false) := by
  rw [laneArrive.arriveQueued, if_neg (number_not_queued fresh), if_neg (not_late timely), if_neg (Nat.not_le.mpr room)]

end FreshNumber

/-- An inserted cue stands after every queued cue of equal in unit, and before the later ones (R106). -/
theorem insertCue_between (c : Cue) {queue : List Cue} (h : queue.Pairwise fun a b => a.inUnit ≤ b.inUnit) :
    ∃ before after, queue = before ++ after ∧ insertCue c queue = before ++ c :: after ∧
      (∀ d ∈ before, d.inUnit ≤ c.inUnit) ∧ ∀ d ∈ after, c.inUnit < d.inUnit := by
  induction queue with
  | nil => exact ⟨[], [], rfl, rfl, nofun, nofun⟩
  | cons d queue ih =>
    obtain ⟨first, rest⟩ := List.pairwise_cons.mp h
    by_cases le : d.inUnit ≤ c.inUnit
    · obtain ⟨before, after, whole, inserted, early, late⟩ := ih rest
      refine ⟨d :: before, after, congrArg (d :: ·) whole, ?_, List.forall_mem_cons.mpr ⟨le, early⟩, late⟩
      rw [insertCue, if_pos le, inserted, List.cons_append]
    · have gt := Nat.lt_of_not_le le
      refine ⟨[], d :: queue, rfl, if_neg le, nofun, List.forall_mem_cons.mpr ⟨gt, fun e member => ?_⟩⟩
      exact gt.trans_le (first e member)

/-! ### Activation (R109) -/

theorem cueDue_iff (p bound : Nat) (d : Cue) : cueDue p bound d = true ↔ d.inUnit ≤ p ∧ d.inUnit < bound := by
  simp only [cueDue, Bool.and_eq_true, decide_eq_true_eq]

section QueueAtFirstNotDue
variable {p bound : Nat} {due later : List Cue} (isDue : ∀ d ∈ due, d.inUnit ≤ p ∧ d.inUnit < bound)
  (notDue : ∀ d, later.head? = some d → p < d.inUnit ∨ bound ≤ d.inUnit)

include notDue in
theorem head_not_due : ∀ d, later.head? = some d → ¬ cueDue p bound d = true := by
  intro d head due
  obtain ⟨reached, inside⟩ := (cueDue_iff p bound d).mp due
  have := notDue d head
  omega

include isDue notDue in
/-- The due cues are those before the first that is not due (R109, step 3). -/
theorem dueCues_of_split : dueCues p bound (due ++ later) = due := by
  rw [dueCues, List.takeWhile_append_of_pos fun d member => (cueDue_iff p bound d).mpr (isDue d member)]
  cases later with
  | nil => exact List.append_nil due
  | cons d later => rw [List.takeWhile_cons_of_neg (head_not_due notDue d rfl), List.append_nil]

include isDue notDue in
theorem laterCues_of_split : laterCues p bound (due ++ later) = later := by
  have whole := dueCues_append_laterCues p bound (due ++ later)
  rw [dueCues_of_split isDue notDue] at whole
  exact List.append_cancel_left whole

end QueueAtFirstNotDue

/-- The active cue that R109's steps 1 and 2 leave: updated, and not over by p. -/
def survivor (p : Nat) (active : Option ActiveCue) : Option ActiveCue :=
  (active.map applyUpdate).filter fun a => decide (p < a.cue.outUnit)

/-- R109's steps 1 and 2: the active cue, updated, stays or is counted retired. -/
theorem retireActive_eq (p : Nat) (x : Lane) : retireActive p x = { x with
    active := survivor p x.active
    counts := { x.counts with
      retired := if (x.active.map applyUpdate).isSome ∧ survivor p x.active = none then satInc Config.max16 x.counts.retired
        else x.counts.retired } } := by
  obtain ⟨queue, active, lowMark, counts⟩ := x
  cases active with
  | none => rfl
  | some a =>
    by_cases past : (applyUpdate a).cue.outUnit ≤ p
    · have gone : survivor p (some a) = none := by simp [survivor, past]
      simp [retireActive, past, gone]
    · have stays : survivor p (some a) = some (applyUpdate a) := by simp [survivor, Nat.lt_of_not_le past]
      simp [retireActive, past, stays]

theorem retireActive_queue (p : Nat) (x : Lane) : (retireActive p x).queue = x.queue := by rw [retireActive_eq]

/-- The due cues that are not over by p (R109, step 4). -/
def liveCues (p : Nat) (due : List Cue) : List Cue := due.filter fun d => decide (p < d.outUnit)

/-- R109's steps 3 and 4: the last live cue, if there is one, becomes active, and the other live cues and the active cue that it
displaces are cut. -/
theorem takeDue_eq (p bound : Nat) (x : Lane) {due : List Cue} (h : dueCues p bound x.queue = due) :
    takeDue p bound x = { x with
      queue := laterCues p bound x.queue
      active := ((liveCues p due).getLast?.map fun d => { cue := d, update := none }).or x.active
      counts := { x.counts with
        skipped := satAdd Config.max16 x.counts.skipped (due.length - (liveCues p due).length)
        cut := if liveCues p due = [] then x.counts.cut
          else satAdd Config.max16 x.counts.cut ((liveCues p due).length - 1 + x.active.toList.length) } } := by
  have shown : (if x.active.isSome then 1 else 0) = x.active.toList.length := by cases x.active <;> rfl
  have live : (due.filter fun d => decide (p < d.outUnit)) = liveCues p due := rfl
  cases last : (liveCues p due).getLast? with
  | none =>
    have dead : liveCues p due = [] := List.getLast?_eq_none_iff.mp last
    simp only [takeDue, h, live, last, if_pos dead]; rfl
  | some d =>
    have alive : liveCues p due ≠ [] := fun dead => Option.some_ne_none d (last.symm.trans (List.getLast?_eq_none_iff.mpr dead))
    simp only [takeDue, h, live, last, shown, if_neg alive]; rfl

theorem laneLow_iff (p bound : Nat) (x : Lane) :
    laneLow p bound x = true ↔ dueCues p bound x.queue ≠ [] ∧ (laterCues p bound x.queue).length ≤ x.lowMark := by
  simp only [laneLow, Bool.and_eq_true, Bool.not_eq_true', List.isEmpty_eq_false_iff, decide_eq_true_eq]

/-- Settles O15: an arrival by its cases, the place of an inserted cue, and activation by its steps. -/
theorem cueArrivesByCase : Obligations.CueArrivesByCase := by
  unfold Obligations.CueArrivesByCase
  refine fun playing p c x => ⟨fun a active same => laneArrive_updates active same playing p, fun other => ?_,
    fun queue sorted => insertCue_between c sorted, fun bound due later queue isDue notDue => ?_⟩
  · rw [laneArrive_queued other]
    exact ⟨fun queued => arriveQueued_replaces queued playing p, fun fresh => ⟨arriveQueued_late fresh,
      fun timely => ⟨arriveQueued_overruns fresh timely, arriveQueued_inserts fresh timely⟩⟩⟩
  · have areDue : dueCues p bound x.queue = due := queue ▸ dueCues_of_split isDue notDue
    have areLater : laterCues p bound x.queue = later := queue ▸ laterCues_of_split isDue notDue
    intro updated kept live y
    have activated : y = takeDue p bound (retireActive p x) := rfl
    have fromQueue : dueCues p bound (retireActive p x).queue = due := by rw [retireActive_queue, areDue]
    rw [takeDue_eq p bound _ fromQueue, retireActive_eq, areLater] at activated
    rw [activated, laneLow_iff, areDue, areLater]
    refine ⟨rfl, rfl, ?_, rfl, Iff.rfl⟩
    show ((live.getLast?.map _).or kept) = _
    cases live.getLast? <;> rfl

end Sys2Proof.Machine
end

section
/-! SUPPORT. Proofs/RefusedPackets.lean: the packets that do not check or that dispatch refuses, R158's checks row by row, and the
transfers that the port does not receive (R157 to R160, Tables 11-1 and 11-2). -/

namespace Sys2Proof.Machine

/-! ### The bytes of a packet (Table 11-11) -/

theorem byteAt_of_getElem? {data : List Byte} {i : Nat} {b : Byte} (h : data[i]? = some b) : byteAt data i = b := by
  rw [byteAt, List.getD_eq_getElem?_getD, h, Option.getD_some]

/-- A packet is whole when its length byte is there, and the CRC byte that it places (R157). -/
theorem packetWhole_iff (p : List Byte) : packetWhole p = true ↔ ∃ n, p[4]? = some n ∧ 5 + n.toNat < p.length := by
  rw [packetWhole, Bool.and_eq_true, decide_eq_true_eq, decide_eq_true_eq]
  constructor
  · rintro ⟨header, whole⟩
    have lengthByte : p[4]? = some p[4] := List.getElem?_eq_getElem header
    rw [byteAt_of_getElem? lengthByte] at whole
    exact ⟨p[4], lengthByte, by omega⟩
  · rintro ⟨n, lengthByte, whole⟩
    rw [byteAt_of_getElem? lengthByte]
    omega

theorem packetCrcOk_iff {p : List Byte} {n x : Byte} (lengthByte : p[4]? = some n) (crcByte : p[5 + n.toNat]? = some x) :
    packetCrcOk p = true ↔ crc8 (p.take (5 + n.toNat)) = x := by
  rw [packetCrcOk, packetBody, byteAt_of_getElem? lengthByte, byteAt_of_getElem? crcByte, beq_iff_eq]

theorem crcFails_iff (p : List Byte) : crcFails p = true ↔
    ∃ n x, p[4]? = some n ∧ p[5 + n.toNat]? = some x ∧ crc8 (p.take (5 + n.toNat)) ≠ x := by
  rw [crcFails, Bool.and_eq_true, Bool.not_eq_true', packetWhole_iff, Bool.eq_false_iff]
  constructor
  · rintro ⟨⟨n, lengthByte, whole⟩, fails⟩
    have crcByte : p[5 + n.toNat]? = some p[5 + n.toNat] := List.getElem?_eq_getElem whole
    exact ⟨n, _, lengthByte, crcByte, fun ok => fails ((packetCrcOk_iff lengthByte crcByte).mpr ok)⟩
  · rintro ⟨n, x, lengthByte, crcByte, differ⟩
    obtain ⟨whole, -⟩ := List.getElem?_eq_some_iff.mp crcByte
    exact ⟨⟨n, lengthByte, whole⟩, fun ok => differ ((packetCrcOk_iff lengthByte crcByte).mp ok)⟩

theorem endsEarly_iff (p : List Byte) : endsEarly p = true ↔ p ≠ [] ∧ ∀ n, p[4]? = some n → p.length ≤ 5 + n.toNat := by
  rw [endsEarly, Bool.and_eq_true, decide_eq_true_eq, List.length_pos_iff, Bool.not_eq_true', Bool.eq_false_iff,
    Ne.eq_1 (packetWhole p), packetWhole_iff]
  push Not
  rfl

/-- A transfer that ends before its CRC byte is no longer than the packet of its length byte, read as 0 where it has not come. -/
theorem length_le_of_not_whole {p : List Byte} (early : packetWhole p = false) :
    p.length ≤ packetLength (byteAt p 4).toNat := by
  by_contra longer
  have whole : packetWhole p = true := by
    unfold packetLength at longer
    rw [packetWhole, Bool.and_eq_true, decide_eq_true_eq, decide_eq_true_eq]
    omega
  exact Bool.false_ne_true (early.symm.trans whole)

/-- Of a transfer to its own address the port acknowledges no byte after the CRC byte (R157). -/
theorem ackedBytes_addressed {straps : BitVec 2} {p : List Byte} (own : addressedTo straps p = true) :
    ackedBytes straps p = Nat.min p.length (packetLength (byteAt p 4).toNat) := if_pos own

theorem addressedTo_of_head {straps : BitVec 2} {p : List Byte} (h : p.head? = some (writeAddress straps)) :
    addressedTo straps p = true := by
  rw [addressedTo, h, beq_self_eq_true]

theorem writeAddressByte_toNat (s : State) : (writeAddressByte s).toNat = 2 * (88 + s.power.straps.toNat) := by
  have := s.power.straps.isLt
  rw [writeAddressByte, writeAddress, BitVec.toNat_ofNat]
  omega

/-! ### The results of the three events (R157 to R160) -/

theorem exec_badCrc {s : State} (linked : Linked s) {p : List Byte} {n : Byte} (fails : crcFails p = true)
    (head : p.head? = some (writeAddressByte s)) (lengthByte : p[4]? = some n) :
    exec (.badCrc p) s = .next (acknowledging (6 + n.toNat) (refusedAs s .badCrc 0)) := by
  have own : addressedTo s.power.straps p = true := addressedTo_of_head head
  obtain ⟨whole, wrong⟩ := Bool.and_eq_true_iff.mp fails
  obtain ⟨-, fits⟩ := Bool.and_eq_true_iff.mp whole
  have acked : ackedBytes s.power.straps p = 6 + n.toNat := by
    rw [ackedBytes_addressed own, byteAt_of_getElem? lengthByte, packetLength]
    rw [byteAt_of_getElem? lengthByte, decide_eq_true_eq] at fits
    exact Nat.min_eq_right fits
  have event : (addressed (quiet s) p && packetWhole p && !packetCrcOk p) = true := by
    rw [addressed, quiet_power, own, whole, wrong]; rfl
  refine request_taken linked ?_
  rw [acked, if_pos event, answer_quiet]

theorem exec_badLengthTruncated {s : State} (linked : Linked s) {p : List Byte} (early : endsEarly p = true)
    (head : p.head? = some (writeAddressByte s)) :
    exec (.badLengthTruncated p) s = .next (acknowledging p.length (refusedAs s .badLength 0)) := by
  have own : addressedTo s.power.straps p = true := addressedTo_of_head head
  obtain ⟨-, cut⟩ := Bool.and_eq_true_iff.mp early
  have acked : ackedBytes s.power.straps p = p.length := by
    rw [ackedBytes_addressed own]
    exact Nat.min_eq_left (length_le_of_not_whole (Bool.not_inj cut))
  have event : (addressed (quiet s) p && !packetWhole p) = true := by
    rw [addressed, quiet_power, own, cut]; rfl
  refine request_taken linked ?_
  rw [acked, if_pos event, answer_quiet]

/-- The op byte of a READ RECORD is 2 (Table 11-11). -/
theorem linkOpOf_read_iff (op : Byte) : linkOpOf op = some .readRecord ↔ op = 2#8 := by
  constructor
  · intro read
    unfold linkOpOf at read
    split at read
    case h_2 two => exact BitVec.eq_of_toNat_eq two
    all_goals cases read
  · rintro rfl; rfl

theorem exec_unrecognisedPacket {s : State} (linked : Linked s) {op t i : Byte} {d : List Byte} {r : LinkResult}
    (refused : linkRefusal op t i d = some r) : exec (.unrecognisedPacket op t i d) s =
      .next (acknowledging (6 + d.length) (dispatchRefused op r (quiet s))) :=
  request_taken linked (by rw [refused]; rfl)

theorem dispatchRefused_read (r : LinkResult) (s : State) : dispatchRefused 2#8 r s = takeSnapshot r [] s :=
  if_pos ((linkOpOf_read_iff 2#8).mpr rfl)

theorem dispatchRefused_other {op : Byte} (other : op ≠ 2#8) (r : LinkResult) (s : State) :
    dispatchRefused op r s = answer r 0 s := if_neg fun read => other ((linkOpOf_read_iff op).mp read)

/-! ### R158's checks, by the op -/

theorem linkOpOf_one : linkOpOf 1#8 = some .writeRecord := rfl
theorem linkOpOf_two : linkOpOf 2#8 = some .readRecord := rfl
theorem linkOpOf_three : linkOpOf 3#8 = some .command := rfl

theorem linkOpOf_unknown {op : Byte} (unknown : op.toNat = 0 ∨ 3 < op.toNat) : linkOpOf op = none := by
  unfold linkOpOf; split
  case h_4 => rfl
  all_goals omega

theorem linkRefusal_unknown_op {op : Byte} (unknown : op.toNat = 0 ∨ 3 < op.toNat) (t i : Byte) (d : List Byte) :
    linkRefusal op t i d = some .badTable := by
  simp only [linkRefusal, linkOpOf_unknown unknown]

/-- The rows of Table 11-1, by number. -/
theorem tableOf_eq (t : Byte) : tableOf t = [LinkTable.ident, .region, .key, .licence, .showing, .filter, .policy, .status, .log,
    .events, .clock, .link][t.toNat]? := by
  unfold tableOf
  rcases h : t.toNat with _ | _ | _ | _ | _ | _ | _ | _ | _ | _ | _ | _ | n <;> rfl

theorem tableOf_beyond {t : Byte} (beyond : 11 < t.toNat) : tableOf t = none := by
  rw [tableOf_eq]
  exact List.getElem?_eq_none beyond

theorem linkRefusal_unknown_table {op : Byte} (record : op = 1#8 ∨ op = 2#8) {t : Byte} (beyond : 11 < t.toNat) (i : Byte)
    (d : List Byte) : linkRefusal op t i d = some .badTable := by
  rcases record with rfl | rfl <;> simp only [linkRefusal, linkOpOf_one, linkOpOf_two, tableOf_beyond beyond]

theorem tableWritable_iff (table : LinkTable) :
    tableWritable table = true ↔ table ∉ [LinkTable.ident, .status, .log, .link] := by
  cases table <;> decide

/-- R158's checks 3 and 4, of an index against a number of indexes and of a length. -/
def indexAndLength (indexes : Nat) (i : Byte) (fits : Prop) [Decidable fits] : Option LinkResult :=
  if indexes ≤ i.toNat then some .badIndex else if fits then none else some .badLength

section IndexAndLength
variable {indexes : Nat} {i : Byte} {fits : Prop} [Decidable fits]

theorem indexAndLength_beyond (beyond : indexes ≤ i.toNat) : indexAndLength indexes i fits = some .badIndex := if_pos beyond

theorem indexAndLength_wrong (inside : i.toNat < indexes) (wrong : ¬ fits) :
    indexAndLength indexes i fits = some .badLength := by
  rw [indexAndLength, if_neg (Nat.not_le.mpr inside), if_neg wrong]

theorem indexAndLength_right (inside : i.toNat < indexes) (right : fits) : indexAndLength indexes i fits = none := by
  rw [indexAndLength, if_neg (Nat.not_le.mpr inside), if_pos right]

end IndexAndLength

/-- A WRITE RECORD to a table that is not writable (Table 11-1). -/
theorem linkRefusal_readOnly {t : Byte} {table : LinkTable} (named : tableOf t = some table)
    (readOnly : tableWritable table = false) (i : Byte) (d : List Byte) : linkRefusal 1#8 t i d = some .badTable := by
  simp only [linkRefusal, linkOpOf_one, named, readOnly]; rfl

/-- A WRITE RECORD to a writable table. -/
theorem linkRefusal_write {t : Byte} {table : LinkTable} (named : tableOf t = some table)
    (writable : tableWritable table = true) (i : Byte) (d : List Byte) :
    linkRefusal 1#8 t i d = indexAndLength (tableIndexes table) i (writeLengthOk table i d = true) := by
  simp only [linkRefusal, linkOpOf_one, named, writable]; rfl

/-- A READ RECORD of a table there is. -/
theorem linkRefusal_read {t : Byte} {table : LinkTable} (named : tableOf t = some table) (i : Byte) (d : List Byte) :
    linkRefusal 2#8 t i d = indexAndLength (tableIndexes table) i (d.length = 0) := by
  simp only [linkRefusal, linkOpOf_two, named]; rfl

/-- A COMMAND there is. -/
theorem linkRefusal_command {t : Byte} {indexes args : Nat} (named : commandShape t = some (indexes, args)) (i : Byte)
    (d : List Byte) : linkRefusal 3#8 t i d = indexAndLength indexes i (d.length = args) := by
  simp only [linkRefusal, linkOpOf_three, named]; rfl

/-! ### The write lengths (Table 11-1) -/

/-- The data has the write length of the table, a SHOW record's by the reel count in its byte 15. -/
def WriteFits (table : LinkTable) (i : Byte) (d : List Byte) : Prop :=
  match table with
  | .region => d.length = 32
  | .key | .licence => d.length = 52
  | .showing => ∃ count, d[15]? = some count ∧ d.length = 16 + 8 * count.toNat
  | .filter => d.length = if i.toNat < 8 then 8 else if i.toNat = 8 then 24 else 48
  | .policy => d.length = 8
  | .events => d.length = 4
  | .clock => d.length = 64
  | .ident | .status | .log | .link => False

theorem showLengthOk_iff (i : Byte) (d : List Byte) : writeLengthOk .showing i d = true ↔
    ∃ count, d[15]? = some count ∧ d.length = 16 + 8 * count.toNat := by
  rw [writeLengthOk, Bool.and_eq_true, decide_eq_true_eq, beq_iff_eq]
  constructor
  · rintro ⟨first, length⟩
    have count : d[15]? = some d[15] := List.getElem?_eq_getElem first
    exact ⟨_, count, byteAt_of_getElem? count ▸ length⟩
  · rintro ⟨count, there, length⟩
    rw [byteAt_of_getElem? there]
    exact ⟨by omega, length⟩

theorem writeLengthOk_iff (table : LinkTable) (i : Byte) (d : List Byte) :
    writeLengthOk table i d = true ↔ WriteFits table i d := by
  cases table
  case showing => exact showLengthOk_iff i d
  case ident | status | log | link => exact iff_of_false Bool.false_ne_true id
  all_goals exact beq_iff_eq

/-! ### The commands (Table 11-2) -/

/-- Table 11-2: the code of each command, its number of indexes and its argument length. -/
def commandRows : List (Nat × Nat × Nat) :=
  [(1, 1, 0), (2, 1, 0), (3, 1, 0), (4, 1, 0), (5, 1, 0), (6, 1, 0), (7, 1, 0), (8, 1, 2), (9, 1, 0), (10, 1, 2),
    (11, 1, 1), (12, 16, 0), (13, 8, 0), (14, 1, 8), (15, 1, 4), (16, 1, 2), (17, 1, 2), (18, 1, 1), (19, 1, 0)]

theorem commandShape_row {row : Nat × Nat × Nat} (member : row ∈ commandRows) {t : Byte} (code : t.toNat = row.1) :
    commandShape t = some row.2 := by
  have table : ∀ row ∈ commandRows, commandShape (BitVec.ofNat 8 row.1) = some row.2 := by decide
  rw [← table row member, ← code, BitVec.ofNat_toNat, BitVec.setWidth_eq]

theorem commandShape_unknown {t : Byte} (unknown : t.toNat = 0 ∨ 19 < t.toNat) : commandShape t = none := by
  unfold commandShape; split
  case h_20 => rfl
  all_goals omega

theorem linkRefusal_unknown_command {t : Byte} (unknown : t.toNat = 0 ∨ 19 < t.toNat) (i : Byte) (d : List Byte) :
    linkRefusal 3#8 t i d = some .badTable := by
  simp only [linkRefusal, linkOpOf_three, commandShape_unknown unknown]

/-! ### Transfers that are not received (R157; log 14, log 15) -/

/-- The command is a transfer on the link: a request, the read transfer, or a packet that is refused. -/
def IsTransfer (c : Instr) : Prop :=
  encodeRequest c ≠ none ∨ (∃ n, c = .readTransfer n) ∨ (∃ p, c = .badCrc p) ∨ (∃ p, c = .badLengthTruncated p) ∨
    ∃ op t i d, c = .unrecognisedPacket op t i d

/-- Every transfer has its effect through the link, which receives it or does not. -/
theorem exec_transfer {c : Instr} (transfer : IsTransfer c) (s : State) : ∃ n f, exec c s = .next (onLink n s f) := by
  cases c
  case lineRead | lineWrite | readReturn | sideReadReturn | writeCompletion | fsyncInEdge | windowExpiry | anchorTimeout
    | internalExpiry | keyExpiry | secureTick | trimYearClose | storeWriteCompletion | storeWriteFailure | wdTick
    | watchdogExpiry | boothReset | brstNRelease | powerOnReset | lossOfPower =>
    simp [IsTransfer, encodeRequest] at transfer
  all_goals exact ⟨_, _, rfl⟩

/-- A transfer that the part does not receive changes nothing: one that was cut off has then ended. -/
theorem exec_transfer_not_received {c : Instr} (transfer : IsTransfer c) {s : State} (unlinked : ¬ Linked s) :
    exec c s = .next { s with link := { s.link with cutOff := false }, out := {} } := by
  obtain ⟨n, f, h⟩ := exec_transfer transfer s
  rw [h, onLink_not_linked unlinked]; rfl

theorem not_linked {s : State} (h : s.power.on = false ∨ s.power.brstLow = true ∨ s.link.cutOff = true) : ¬ Linked s := by
  rintro ⟨on, high, whole⟩
  simp [on, high, whole] at h

/-! ### The obligation -/

/-- Settles O52: the results of the three events, R158's checks, and the transfers that are not received. -/
theorem refusedPacketsLeaveTheirResult : Obligations.RefusedPacketsLeaveTheirResult := by
  unfold Obligations.RefusedPacketsLeaveTheirResult
  refine ⟨fun s linked => ⟨fun p n => exec_badCrc linked, fun p => exec_badLengthTruncated linked,
      fun op t i d r refused => ?_⟩,
    fun op t i d => ⟨fun unknown => linkRefusal_unknown_op unknown t i d,
      fun record beyond => linkRefusal_unknown_table record beyond i d, ?_, fun table named => ?_, ?_⟩,
    tableOf_eq, fun table => ⟨tableWritable_iff table, by cases table <;> rfl⟩,
    fun c s transfer lost => exec_transfer_not_received transfer (not_linked lost), writeAddressByte_toNat,
    fun p => ⟨crcFails_iff p, endsEarly_iff p⟩⟩
  · rw [exec_unrecognisedPacket linked refused]
    constructor
    · intro other
      rw [dispatchRefused_other other, answer_quiet]
    · rintro rfl
      rw [dispatchRefused_read]; rfl
  · rintro rfl unknown
    exact linkRefusal_unknown_command unknown i d
  · refine ⟨?_, ?_, ?_, ?_, ?_, ?_⟩ <;> rintro rfl
    · exact fun readOnly => linkRefusal_readOnly named readOnly i d
    · exact fun writable beyond => (linkRefusal_write named writable i d).trans (indexAndLength_beyond beyond)
    · exact fun beyond => (linkRefusal_read named i d).trans (indexAndLength_beyond beyond)
    · exact fun inside data => (linkRefusal_read named i d).trans
        (indexAndLength_wrong inside fun empty => data (List.eq_nil_of_length_eq_zero empty))
    · exact fun inside empty => (linkRefusal_read named i d).trans (indexAndLength_right inside (empty ▸ rfl))
    · intro writable inside fits
      rw [linkRefusal_write named writable]
      exact ⟨fun wrong => indexAndLength_wrong inside fun ok => wrong ((writeLengthOk_iff table i d).mp ok),
        fun right => indexAndLength_right inside ((writeLengthOk_iff table i d).mpr right)⟩
  · rintro row member rfl code
    rw [linkRefusal_command (commandShape_row member code)]
    exact ⟨indexAndLength_beyond, indexAndLength_wrong, indexAndLength_right⟩

end Sys2Proof.Machine
end

section
/-! SUPPORT. Proofs/StoreRequests.lean: the four requests that write the Count Store, LOAD LICENCE, DELETE LICENCE, POP LOG and
SET SCREEN: their checks row by row, and the state that each leaves (R131 to R133, R138, R143). -/

namespace Sys2Proof.Machine

/-! ### The two checks that every one of them begins with -/

/-- The rows of the store's state: not FAILED, not BUSY. -/
def storeRows (s : State) : List Row :=
  [⟨s.count.status ≠ .failed, .storeFailed, 1⟩, ⟨storeCode s.count.status ≠ 1#8, .busy, 2⟩]

theorem storeCode_busy (x : StoreStatus) : storeCode x = 1#8 ↔ ∃ w, x = .busy w := by cases x <;> simp [storeCode]

theorem storeNotBusy_eq (s : State) : storeNotBusy s = decide (storeCode s.count.status ≠ 1#8) := by
  unfold storeNotBusy
  cases s.count.status <;> rfl

theorem storeChecks_agree (s : State) : List.Forall₂ Agree (storeChecks s) (storeRows s) :=
  .cons ⟨storeNotFailed_eq s, rfl, rfl⟩ (.cons ⟨storeNotBusy_eq s, rfl, rfl⟩ .nil)

/-- A READY store passes both rows. -/
theorem judged_ready {s : State} (ready : s.count.status = .ready) (accepted : State) (rows : List Row) :
    judged s accepted (storeRows s ++ rows) = judged s accepted rows := by
  simp [storeRows, judged, ready, storeCode]

theorem bne_eq_decide_ne {α : Type} [BEq α] [LawfulBEq α] [DecidableEq α] (a b : α) : (a != b) = decide (a ≠ b) := by
  rw [Bool.eq_iff_iff, bne_iff_ne, decide_eq_true_iff]

theorem notReserved_agrees (i : Fin 8) (s : State) :
    Agree { pass := s.count.reserved != some i, result := .refusedState, detail := 3 }
      ⟨s.count.reserved ≠ some i, .refusedState, 3⟩ :=
  ⟨bne_eq_decide_ne _ _, rfl, rfl⟩

/-! ### LOAD LICENCE -/

theorem usedOf_eq (x : LicenceSlot) : usedOf x = ((licenceOf x).map (·.used)).getD 0 := by cases x <;> rfl

theorem sameLicence_eq (x : LicenceSlot) (p : PlainLicence) :
    sameLicence x p = (licenceOf x).all fun l => l.licenceId = p.licenceId := by cases x <;> rfl

/-- The rows of R131 after the store's, of what a blob unwraps to. -/
def licenceRows (i : Fin 8) (p : PlainLicence) (check : BitVec 32) (s : State) : List Row :=
  let held := licenceOf s.count.ram.licences[i]
  [⟨s.count.reserved ≠ some i, .refusedState, 3⟩, ⟨s.secure.valid, .refusedState, 4⟩, ⟨p.check = check, .keyWrap, 5⟩,
   ⟨1 ≤ p.granted && p.granted ≤ 65535 && 1 ≤ p.permille && p.permille ≤ 1000 &&
      p.notBefore.toNat < p.notAfter.toNat && s.secure.time < p.notAfter.toNat, .refusedValue, 6⟩,
   ⟨held.all fun l => l.licenceId = p.licenceId, .refusedState, 7⟩,
   ⟨(held.map (·.used)).getD 0 ≤ p.granted, .refusedValue, 8⟩]

theorem licenceChecks_agree (i : Fin 8) (p : PlainLicence) (check : BitVec 32) (s : State) :
    List.Forall₂ Agree (licenceChecks i p check s) (storeRows s ++ licenceRows i p check s) := by
  have used : decide (usedOf s.count.ram.licences[i] ≤ p.granted) =
      decide (((licenceOf s.count.ram.licences[i]).map (·.used)).getD 0 ≤ p.granted) := by rw [usedOf_eq]
  exact List.rel_append (storeChecks_agree s) (.cons (notReserved_agrees i s) (.cons ⟨rfl, rfl, rfl⟩ (.cons ⟨rfl, rfl, rfl⟩
    (.cons ⟨rfl, rfl, rfl⟩ (.cons ⟨sameLicence_eq _ p, rfl, rfl⟩ (.cons ⟨used, rfl, rfl⟩ .nil))))))

/-- Settles O37: LOAD LICENCE is judged by the rows of R131, on whatever its blob unwraps to. -/
theorem loadLicenceFollowsItsChecks : Obligations.LoadLicenceFollowsItsChecks := by
  unfold Obligations.LoadLicenceFollowsItsChecks
  refine ⟨fun i blob check s linked => ?_, storeCode_busy⟩
  refine request_judged linked (checked_eq_judged (licenceChecks_agree i (Config.unwrapLicence blob) check (quiet s)) ?_)
  rw [licenceLoaded, usedOf_eq]; rfl

/-! ### DELETE LICENCE -/

theorem isEmptySlot_iff (x : LicenceSlot) : isEmptySlot x = true ↔ x = .empty := by cases x <;> simp [isEmptySlot]

theorem logNames_eq (log : List LogRecord) (i : Fin 8) : (!logNames log i) = log.all fun x => x.slot ≠ i := by
  rw [logNames, List.not_any_eq_all_not]
  congr 1; funext x
  exact (decide_not (p := x.slot = i)).symm

theorem deleteChecks_agree (i : Fin 8) (s : State) : List.Forall₂ Agree (deleteChecks i s) (storeRows s ++
    [⟨s.count.reserved ≠ some i, .refusedState, 3⟩, ⟨s.count.ram.log.all fun x => x.slot ≠ i, .refusedState, 4⟩]) :=
  List.rel_append (storeChecks_agree s) (.cons (notReserved_agrees i s) (.cons ⟨logNames_eq _ i, rfl, rfl⟩ .nil))

/-- A deletion starts a write unless the slot is EMPTY already (R133). -/
theorem licenceDeleted_eq (i : Fin 8) (s : State) : licenceDeleted i (quiet s) = { s with
    count := if s.count.ram.licences[i] = .empty then s.count else
      { s.count with
        ram := { s.count.ram with licences := vput s.count.ram.licences i .empty }, status := .busy (.slot i .empty) }
    link := answered s.link .ok 0
    out := {} } := by
  unfold licenceDeleted
  by_cases empty : s.count.ram.licences[i] = .empty
  · rw [quiet_count, if_pos ((isEmptySlot_iff _).mpr empty), if_pos empty]; rfl
  · rw [quiet_count, if_neg fun c => empty ((isEmptySlot_iff _).mp c), if_neg empty]; rfl

/-- No record of a log names a slot of which it has none. -/
theorem no_record_names {log : List LogRecord} {i : Fin 8} (none : namingRecords log i = 0) : ∀ x ∈ log, x.slot ≠ i := by
  intro x member same
  have empty := List.filter_eq_nil_iff.mp (List.eq_nil_of_length_eq_zero none)
  exact empty x member (beq_iff_eq.mpr same)

/-- Settles O38: DELETE LICENCE is judged by its four rows; an EMPTY slot has no showing used, so no record names it. -/
theorem deleteLicenceFollowsItsChecks : Obligations.DeleteLicenceFollowsItsChecks := by
  unfold Obligations.DeleteLicenceFollowsItsChecks
  refine ⟨fun i s linked => ?_, fun m i lawful empty => ?_⟩
  · exact request_judged linked (checked_eq_judged (deleteChecks_agree i (quiet s)) (licenceDeleted_eq i s))
  · obtain ⟨-, -, -, -, -, naming⟩ := lawful
    have most := naming i
    rw [empty] at most
    exact no_record_names (Nat.le_zero.mp most)

/-! ### POP LOG -/

/-- The row of the record that POP LOG names: the log's oldest (R138). -/
def oldestRow (n : BitVec 64) (s : State) : Row := ⟨s.count.ram.log.head?.any fun x => x.sequence = n.toNat, .refusedValue, 3⟩

/-- The state after an accepted POP LOG. -/
def logShortened (s : State) : State :=
  { s with
    count := { s.count with
      ram := { s.count.ram with log := s.count.ram.log.drop 1 }, status := .busy (.log (s.count.ram.log.drop 1)) }
    link := answered s.link .ok 0
    out := {} }

theorem oldestIs_eq (log : List LogRecord) (n : Nat) : oldestIs log n = log.head?.any fun x => x.sequence = n := by
  cases log <;> rfl

theorem exec_popLog {s : State} (linked : Linked s) (n : BitVec 64) :
    exec (.popLog n) s = .next (acknowledging 14 (judged s (logShortened s) (storeRows s ++ [oldestRow n s]))) := by
  have popped : logPopped (quiet s) = logShortened s := by rw [logShortened, List.drop_one]; rfl
  exact request_judged linked (checked_eq_judged (List.rel_append (storeChecks_agree (quiet s))
    (.cons ⟨oldestIs_eq _ _, rfl, rfl⟩ .nil)) popped)

theorem exec_popLog_ready {s : State} (linked : Linked s) (ready : s.count.status = .ready) (n : BitVec 64) :
    exec (.popLog n) s = .next (acknowledging 14 (if (oldestRow n s).holds then logShortened s
      else refusedAs s .refusedValue 3)) := by
  rw [exec_popLog linked, judged_ready ready]; rfl

/-- Once its oldest record has left it, no record of a log in rising order has that number at its head. -/
theorem oldest_leaves {log : List LogRecord} (rising : log.Pairwise fun a b => a.sequence < b.sequence) {n : Nat}
    {x : LogRecord} (oldest : log.head? = some x) (number : x.sequence = n) :
    ((log.drop 1).head?.any fun y => y.sequence = n) = false := by
  obtain ⟨rest, rfl⟩ := List.head?_eq_some_iff.mp oldest
  obtain ⟨above, -⟩ := List.pairwise_cons.mp rising
  cases rest with
  | nil => rfl
  | cons y rest =>
    have later := above y List.mem_cons_self
    exact decide_eq_false (by omega)

/-- Settles O39: POP LOG is judged by its three rows; the record that leaves is not the oldest again. -/
theorem popLogTakesTheOldest : Obligations.PopLogTakesTheOldest := by
  unfold Obligations.PopLogTakesTheOldest
  refine ⟨fun n s linked => exec_popLog linked n, fun n s t linked lawful counting ready oldest accepted => ?_⟩
  obtain ⟨x, head, number⟩ := oldest
  obtain ⟨-, -, -, rising, -, -⟩ := lawful
  have holds : (oldestRow n s).holds = true := by simp [oldestRow, head, number]
  rw [exec_popLog_ready linked ready, if_pos holds] at accepted
  obtain rfl := Host.Outcome.next.inj accepted
  refine ⟨rfl, fun u linked ready log => ?_⟩
  have fails : (oldestRow n u).holds = false := by
    rw [oldestRow, log]; exact oldest_leaves (rising counting) head number
  rw [exec_popLog_ready linked ready, if_neg (by simp [fails])]

/-! ### SET SCREEN -/

/-- Settles O40: SET SCREEN is judged by its four rows. -/
theorem setScreenIsTakenOnce : Obligations.SetScreenIsTakenOnce := by
  unfold Obligations.SetScreenIsTakenOnce
  intro id s linked
  exact request_judged linked (checked_eq_judged (List.rel_append (storeChecks_agree (quiet s))
    (.cons ⟨rfl, rfl, rfl⟩ (.cons ⟨bne_eq_decide_ne _ _, rfl, rfl⟩ .nil))) rfl)

end Sys2Proof.Machine
end

section
/-! SUPPORT. Proofs/StoreWrites.lean: the completion and the failure of a write of the Count Store (R139, R140, R142, R144, R147,
R151). -/

namespace Sys2Proof.Machine

/-! ### Completion -/

/-- The store as a write that completes leaves it: READY, holding what the write covers (R139). -/
def writtenCount (w : StoreWrite) (c : CountUnit) : CountUnit :=
  { c with store := programWrite w c.store, status := .ready, commitSeen := false }

/-- The state in which a write has completed, STORE_DONE being set (R139). -/
def writeDone (w : StoreWrite) (s : State) : State :=
  { s with count := writtenCount w s.count, link := { s.link with eventPending := s.link.eventPending ||| 64#7 } }

section
variable {s : State} (w : StoreWrite)

/-- The write of the waiting commits starts at once, its image taken now (R139). -/
theorem storeCompletes_waiting (waits : s.count.waiting ≠ []) : storeCompletes w s = (writeDone w s).setCount
    { writtenCount w s.count with
      status := .busy (commitImage s.count.waiting s.count.ram), waiting := [] } := by
  unfold storeCompletes afterWrite; split
  · next empty => exact absurd empty waits
  · rfl

theorem storeCompletes_ready (alone : s.count.waiting = []) (none : s.count.reloadDue = false) :
    storeCompletes w s = writeDone w s := by
  unfold storeCompletes afterWrite reloadIfDue; split
  · exact if_neg (by simp [none])
  · next waits => exact absurd alone waits

/-- The reload owed to a booth reset is made (R142). -/
theorem storeCompletes_reload (alone : s.count.waiting = []) (owed : s.count.reloadDue = true) :
    storeCompletes w s = loadRam ((writeDone w s).setCount { writtenCount w s.count with reloadDue := false }) := by
  unfold storeCompletes afterWrite reloadIfDue; split
  · exact if_pos owed
  · next waits => exact absurd alone waits

end

theorem exec_storeWriteCompletion {s : State} {w : StoreWrite} (on : s.power.on = true) (busy : s.count.status = .busy w) :
    exec .storeWriteCompletion s = .next (storeCompletes w (quiet s)) := by
  show Host.Outcome.next (whenOn s _) = _
  rw [whenOn_on on, quiet_count, busy]

/-- Settles O41: a completion with commits waiting, with none, and with a reload owed. -/
theorem completedWriteStoresItsImage : Obligations.CompletedWriteStoresItsImage := by
  unfold Obligations.CompletedWriteStoresItsImage
  intro s w on busy store done
  have image : programWrite w s.count.store = store := by cases w <;> rfl
  rw [exec_storeWriteCompletion on busy, ← image]
  refine ⟨fun waits => ?_, fun alone none => ?_, fun alone owed => ?_⟩
  · rw [storeCompletes_waiting (s := quiet s) w waits]; rfl
  · rw [storeCompletes_ready (s := quiet s) w alone none]; rfl
  · rw [storeCompletes_reload (s := quiet s) w alone owed, loadRam_eq]; rfl

/-! ### Failure -/

theorem mem_commitSlots (w : StoreWrite) (i : Fin 8) : i ∈ commitSlots w ↔
    ∃ slots log sequence, w = .commit slots log sequence ∧ ∃ image, (i, image) ∈ slots := by
  cases w <;> simp [commitSlots]

theorem suspendSlots_get (slots : List (Fin 8)) (ram : CountImage) (i : Fin 8) : (suspendSlots slots ram).licences[i] =
    if i ∈ slots then suspendSlot ram.licences[i] else ram.licences[i] := by simp [suspendSlots]

/-- A raise of STORE_FAIL under LATCH has been made since `s`: what R147 and R151 have it leave. -/
structure StoreFailLatched (s t : State) : Prop where
  output : outputCondition t = .blankLatched
  flag : (faultOf t .storeFail).flag = true
  storeDone : t.link.eventPending.getLsbD 6 = true
  fault : t.link.eventPending.getLsbD 0 = true
  countdown : t.sup.countdown = s.sup.countdown
  running : s.ctl.state = .running → t.ctl = { s.ctl with state := .held } ∧ t.clock.substate = .idle
  still : s.ctl.state ≠ .running → t.ctl = s.ctl ∧ t.clock = s.clock

section
variable {s t : State} (b : GainRamp) (latch : (policyOfKind t .storeFail).policy = .latch)
  (storeDone : t.link.eventPending.getLsbD 6 = true) (countdown : t.sup.countdown = s.sup.countdown)
include latch storeDone countdown

/-- The raise, of whatever has become of the show since. -/
theorem raiseStoreFail_latched
    (running : s.ctl.state = .running → (raiseFault b .storeFail t).ctl = { s.ctl with state := .held } ∧
      (raiseFault b .storeFail t).clock.substate = .idle)
    (still : s.ctl.state ≠ .running → (raiseFault b .storeFail t).ctl = s.ctl ∧ (raiseFault b .storeFail t).clock = s.clock) :
    StoreFailLatched s (raiseFault b .storeFail t) := by
  obtain ⟨flag, fault⟩ := raiseFault_flag b .storeFail t (by rw [latch]; decide)
  exact {
    output := raiseFault_latched b .storeFail t latch
    flag := flag
    storeDone := (raiseFault_kept b .storeFail t).events 6 storeDone
    fault := fault
    countdown := (raiseFault_countdown b .storeFail t (by rw [latch]; decide)).trans countdown
    running := running
    still := still }

/-- The first raise holds a RUNNING show. -/
theorem firstStoreFail_latched (ctl : t.ctl = s.ctl) (clock : t.clock = s.clock) :
    StoreFailLatched s (raiseFault b .storeFail t) := by
  obtain ⟨held, left⟩ := raiseFault_latch b .storeFail t latch
  rw [ctl, clock] at held left
  refine raiseStoreFail_latched b latch storeDone countdown (fun running => ?_) left
  obtain ⟨ctl, clock⟩ := held running
  exact ⟨ctl, by rw [clock]⟩

end

/-- A second raise finds no RUNNING show. -/
theorem StoreFailLatched.again {s t : State} (h : StoreFailLatched s t) (latch : (policyOfKind t .storeFail).policy = .latch)
    (b : GainRamp) : StoreFailLatched s (raiseFault b .storeFail t) := by
  have held : t.ctl.state ≠ .running := by
    by_cases running : s.ctl.state = .running
    · rw [(h.running running).1]; exact nofun
    · rw [(h.still running).1]; exact running
  obtain ⟨ctl, clock⟩ := (raiseFault_latch b .storeFail t latch).2 held
  exact raiseStoreFail_latched b latch h.storeDone h.countdown (by rw [ctl, clock]; exact h.running)
    (by rw [ctl, clock]; exact h.still)

theorem exec_storeWriteFailure {s : State} {w : StoreWrite} (on : s.power.on = true) (busy : s.count.status = .busy w) :
    exec .storeWriteFailure s = .next (storeFails w (quiet s)) := by
  show Host.Outcome.next (whenOn s _) = _
  rw [whenOn_on on, quiet_count, busy]

/-- A failure raises STORE_FAIL once, or a second time for a commit that found the store FAILED (R144). -/
theorem storeFails_cases (w : StoreWrite) (s : State) :
    let once := raiseFault s.sound.ramp .storeFail (failedStore w s)
    (s.count.commitSeen = false → storeFails w s = once) ∧
      (storeFails w s = once ∨ storeFails w s = raiseFault s.sound.ramp .storeFail once) := by
  intro once
  refine ⟨fun unseen => if_neg (by simp [commitFoundFailed, unseen]), ?_⟩
  by_cases found : commitFoundFailed s = true
  · exact .inr (if_pos found)
  · exact .inl (if_neg found)

/-- Settles O42: the slots of the failed write and the waiting ones, and the one raise or the two. -/
theorem failedWriteSuspendsItsSlots : Obligations.FailedWriteSuspendsItsSlots := by
  unfold Obligations.FailedWriteSuspendsItsSlots
  refine ⟨fun s w on busy => ?_, mem_commitSlots, fun x => by cases x <;> rfl⟩
  refine ⟨(suspendSlots (commitSlots w ++ s.count.waiting) s.count.ram).licences, fun i => ?_, ?_⟩
  · rw [suspendSlots_get]; simp only [List.mem_append]
  · intro u once
    have raised : raiseFault s.sound.ramp .storeFail (failedStore w (quiet s)) = once := raiseFault_eq _ _ _
    obtain ⟨alone, either⟩ := storeFails_cases w (quiet s)
    rw [quiet_sound, raised] at alone either
    rw [exec_storeWriteFailure on busy]
    refine ⟨fun unseen => congrArg _ (alone unseen), _, rfl, ?_, fun latch => ?_⟩
    · rw [← raiseFault_eq]; exact either
    · suffices latched : StoreFailLatched s (storeFails w (quiet s)) by
        obtain ⟨output, flag, storeDone, fault, countdown, running, still⟩ := latched
        exact ⟨output, flag, storeDone, fault, countdown, running, still⟩
      have first : StoreFailLatched s once := by
        rw [← raised]
        have storeDone : (failedStore w (quiet s)).link.eventPending.getLsbD 6 = true := by
          simp [failedStore, setEvent, eventBit]
        exact firstStoreFail_latched _ latch storeDone rfl rfl rfl
      rcases either with e | e <;> rw [e]
      · exact first
      · refine first.again ?_ _
        rw [← raised, policyOfKind, (raiseFault_policies _ _ _).1]; exact latch

end Sys2Proof.Machine
end

section
/-! SUPPORT. Proofs/CountImages.lean: the law of an image of the Count Store and the law of the Count Unit, and what keeps them: a
link write started, a showing taken, a commit at the store, a completion, a failure, a reload (R129, R135 to R137, R139, R140,
R142). -/

namespace Sys2Proof.Machine

/-! ### The law of an image -/

theorem usedOf_licence {x : LicenceSlot} {l : Licence} (h : licenceOf x = some l) : usedOf x = l.used := by
  rw [usedOf_eq, h]; rfl

/-- The records and the counters as they are, and in every slot the licence that was there, whatever the slot's state. -/
theorem ImageOk.of_licences {m n : CountImage} (h : ImageOk m) (log : n.log = m.log) (sequence : n.sequence = m.sequence)
    (licence : ∀ i : Fin 8, licenceOf n.licences[i] = licenceOf m.licences[i]) : ImageOk n := by
  obtain ⟨counts, length, top, rising, bounded, naming⟩ := h
  unfold ImageOk
  rw [log, sequence]
  refine ⟨fun i => ?_, length, top, rising, bounded, fun i => ?_⟩
  · unfold licenceCounts; rw [licence]; exact counts i
  · rw [usedOf_eq, licence, ← usedOf_eq]; exact naming i

/-- A slot replaced by one whose counts add up and that has its records' showings used. -/
theorem ImageOk.putLicence {m : CountImage} (h : ImageOk m) {i : Fin 8} {x : LicenceSlot} (own : licenceCounts x)
    (used : namingRecords m.log i ≤ usedOf x) : ImageOk { m with licences := vput m.licences i x } := by
  obtain ⟨counts, length, top, rising, bounded, naming⟩ := h
  refine ⟨fun j => ?_, length, top, rising, bounded, fun j => ?_⟩
  · show licenceCounts (vput m.licences i x)[j]
    rw [vput_get]; split
    · exact own
    · exact counts j
  · show namingRecords m.log j ≤ usedOf (vput m.licences i x)[j]
    rw [vput_get]; split
    · next same => exact same ▸ used
    · exact naming j

/-- The oldest record taken away (R138). -/
theorem ImageOk.dropOldest {m : CountImage} (h : ImageOk m) : ImageOk { m with log := m.log.tail } := by
  obtain ⟨counts, length, top, rising, bounded, naming⟩ := h
  have sub : m.log.tail.Sublist m.log := List.tail_sublist _
  exact ⟨counts, sub.length_le.trans length, top, fun counting => (rising counting).sublist sub,
    fun x hx => bounded x (sub.subset hx), fun i => (sub.filter _).length_le.trans (naming i)⟩

theorem licenceOf_suspendSlots (slots : List (Fin 8)) (m : CountImage) (i : Fin 8) :
    licenceOf (suspendSlots slots m).licences[i] = licenceOf m.licences[i] := by
  rw [suspendSlots_get]; split
  · exact licenceOf_suspendSlot _
  · rfl

theorem ImageOk.suspends {m : CountImage} (h : ImageOk m) (slots : List (Fin 8)) : ImageOk (suspendSlots slots m) :=
  h.of_licences rfl rfl (licenceOf_suspendSlots slots m)

/-! ### A showing taken (R135, R136) -/

theorem namingRecords_append (log : List LogRecord) (x : LogRecord) (i : Fin 8) :
    namingRecords (log ++ [x]) i = namingRecords log i + if x.slot = i then 1 else 0 := by
  unfold namingRecords
  rw [List.filter_append, List.length_append, List.filter_singleton]
  by_cases own : x.slot = i
  · simp [own]
  · simp [beq_false_of_ne own, own]

/-- The sequence counter goes on by one until it stops at its maximum. -/
theorem nextSequence_le {n : Nat} (h : n ≤ maxSequence) : n ≤ satInc maxSequence n ∧ satInc maxSequence n ≤ maxSequence ∧
    (satInc maxSequence n < maxSequence → n < maxSequence ∧ n < satInc maxSequence n) := by
  have next : satInc maxSequence n = min (n + 1) maxSequence := rfl
  rw [next]; omega

/-- The RAM copy with a showing taken and its record appended keeps the law, when the log had room and the licence a showing
left. -/
theorem showingImage_lawful {s : State} {i : Fin 8} {l : Licence} (h : ImageOk s.count.ram) (r : ShowRecord)
    (room : s.count.ram.log.length < 64) (licence : licenceOf s.count.ram.licences[i] = some l) (left : 1 ≤ l.remaining) :
    ImageOk (showingImage s r i) := by
  obtain ⟨counts, length, top, rising, bounded, naming⟩ := h
  obtain ⟨onward, stops, counting⟩ := nextSequence_le top
  have other {j : Fin 8} (h : i ≠ j) : (showingImage s r i).licences[j] = s.count.ram.licences[j] := vput_get_other _ _ h
  have taken := licenceOf_showingImage licence r
  refine ⟨fun j => ?_, ?_, stops, fun going => ?_, fun x hx => ?_, fun j => ?_⟩
  · by_cases own : i = j
    · subst own
      intro k hk
      obtain rfl : _ = k := Option.some.inj (taken.symm.trans hk)
      obtain ⟨sum, some, most⟩ := counts i l licence
      exact ⟨by dsimp only; omega, some, most⟩
    · rw [other own]; exact counts j
  · show (s.count.ram.log ++ [commitRecord s r i]).length ≤ 64
    rw [List.length_append, List.length_singleton]; omega
  · obtain ⟨was, later⟩ := counting going
    refine List.pairwise_append.mpr ⟨rising was, List.pairwise_singleton _ _, fun a ha b hb => ?_⟩
    rw [List.mem_singleton.mp hb]
    exact Nat.lt_of_le_of_lt (bounded a ha) later
  · rcases List.mem_append.mp hx with old | new
    · exact (bounded x old).trans onward
    · rw [List.mem_singleton.mp new]; exact Nat.le_refl _
  · have slot : (commitRecord s r i).slot = i := rfl
    show namingRecords (s.count.ram.log ++ [commitRecord s r i]) j ≤ _
    rw [namingRecords_append, slot]
    by_cases own : i = j
    · subst own
      have most := naming i
      rw [usedOf_licence licence] at most
      rw [usedOf_licence taken, if_pos rfl]
      exact Nat.succ_le_succ most
    · rw [other own, if_neg own]; exact naming j

/-! ### The law of the Count Unit -/

/-- The law of the Count Unit but for the reservation: both images lawful, and the store as it stands to the RAM copy (R139). -/
def CountLawful (c : CountUnit) : Prop := ImageOk c.ram ∧ ImageOk c.store ∧ StoreOk c

theorem countsOk_iff (s : State) : CountsOk s ↔ CountLawful s.count ∧ ReservationOk s := by
  unfold CountsOk CountLawful; simp only [and_assoc]

section
variable {c : CountUnit}

theorem CountLawful.ram (h : CountLawful c) : ImageOk c.ram := h.1

theorem CountLawful.store (h : CountLawful c) : ImageOk c.store := h.2.1

theorem CountLawful.stands (h : CountLawful c) : StoreOk c := h.2.2

theorem storeOk_ready (ready : c.status = .ready) : StoreOk c ↔ c.store = c.ram ∧ c.waiting = [] := by
  unfold StoreOk; rw [ready]

theorem storeOk_failed (failed : c.status = .failed) : StoreOk c ↔ c.waiting = [] := by
  unfold StoreOk; rw [failed]

theorem storeOk_busy {w : StoreWrite} (busy : c.status = .busy w) : StoreOk c ↔
    ImageOk (programWrite w c.store) ∧ (c.waiting = [] → programWrite w c.store = c.ram) ∧
      (programWrite w c.store).screenId = c.ram.screenId ∧
      ∀ i : Fin 8, i ∉ c.waiting → (programWrite w c.store).licences[i] = c.ram.licences[i] := by
  unfold StoreOk; rw [busy]

/-- A write started from READY, of a RAM copy changed in what the write covers alone. -/
theorem CountLawful.startsWrite (h : CountLawful c) (ready : c.status = .ready) {w : StoreWrite} {ram : CountImage}
    (lawful : ImageOk ram) (covers : programWrite w c.ram = ram) : CountLawful { c with ram := ram, status := .busy w } := by
  obtain ⟨-, stored, store⟩ := h
  obtain ⟨same, -⟩ := (storeOk_ready ready).mp store
  have after : programWrite w c.store = ram := by rw [same, covers]
  refine ⟨lawful, stored, (storeOk_busy rfl).mpr ⟨?_, fun _ => after, congrArg (·.screenId) after, fun i _ => ?_⟩⟩
  · exact after.symm ▸ lawful
  · exact congrArg (·.licences[i]) after

/-! ### A commit write (R139) -/

theorem putSlots_get (slots : List (Fin 8)) (ram : CountImage) (v : Vector LicenceSlot 8) (j : Fin 8) :
    ((slots.map fun i => (i, ram.licences[i])).foldl (fun ls p => vput ls p.1 p.2) v)[j] =
      if j ∈ slots then ram.licences[j] else v[j] := by
  induction slots generalizing v with
  | nil => rfl
  | cons i slots ih =>
    rw [List.map_cons, List.foldl_cons, ih, vput_get]
    by_cases later : j ∈ slots
    · simp [later]
    · by_cases own : i = j
      · subst own; simp
      · simp [later, own, Ne.symm own]

/-- A commit write of the slots in which an image differs from the RAM copy, taken now, makes it the RAM copy. -/
theorem programWrite_commitImage {slots : List (Fin 8)} {ram m : CountImage} (screen : m.screenId = ram.screenId)
    (others : ∀ i : Fin 8, i ∉ slots → m.licences[i] = ram.licences[i]) : programWrite (commitImage slots ram) m = ram := by
  have licences : (programWrite (commitImage slots ram) m).licences = ram.licences := table_ext fun j => by
    refine (putSlots_get slots ram m.licences j).trans ?_
    split
    · rfl
    · next absent => exact others j absent
  obtain ⟨l, g, q, x⟩ := ram
  subst screen
  exact congrArg (CountImage.mk · g q m.screenId) licences

/-- The waiting set that a slot has joined (R139). -/
theorem mem_joined (waiting : List (Fin 8)) (i j : Fin 8) :
    j ∈ (if i ∈ waiting then waiting else waiting ++ [i]) ↔ j ∈ waiting ∨ j = i := by
  split
  · next there => exact ⟨.inl, fun h => h.elim id fun own => own ▸ there⟩
  · rw [List.mem_append, List.mem_singleton]

/-- A showing taken and committed at the store, by its state: a commit write started, the slot among the waiting, or
SUSPENDED (R139, R140). -/
theorem CountLawful.commits {s : State} {r : ShowRecord} {i : Fin 8} (h : CountLawful s.count)
    (lawful : ImageOk (showingImage s r i)) : CountLawful (storedCount i { s.count with ram := showingImage s r i }) := by
  have other {j : Fin 8} (h : i ≠ j) : (showingImage s r i).licences[j] = s.count.ram.licences[j] := vput_get_other _ _ h
  have stored := h.store
  have store := h.stands
  cases status : s.count.status with
  | ready =>
    rw [storedCount_ready (c := { s.count with ram := showingImage s r i }) status]
    refine h.startsWrite status lawful (programWrite_commitImage rfl fun j absent => (other fun own => ?_).symm)
    exact absent (List.mem_singleton.mpr own.symm)
  | busy w =>
    rw [storedCount_busy (c := { s.count with ram := showingImage s r i }) status]
    obtain ⟨after, -, screen, others⟩ := (storeOk_busy status).mp store
    refine ⟨lawful, stored, (storeOk_busy (w := w) (by exact status)).mpr ⟨after, fun none => ?_, screen, fun j absent => ?_⟩⟩
    · have there := (mem_joined s.count.waiting i i).mpr (.inr rfl)
      exact absurd there (List.eq_nil_iff_forall_not_mem.mp none i)
    · obtain ⟨alone, another⟩ := not_or.mp fun h => absent ((mem_joined s.count.waiting i j).mpr h)
      exact (others j alone).trans (other fun own => another own.symm).symm
  | failed =>
    rw [storedCount_failed (c := { s.count with ram := showingImage s r i }) status]
    exact ⟨lawful.suspends _, stored, (storeOk_failed (by exact status)).mpr ((storeOk_failed status).mp store)⟩

/-! ### Completion, failure, reset -/

/-- A completion with no commit waiting leaves the store as the RAM copy is. -/
theorem StoreOk.written_eq {w : StoreWrite} (h : StoreOk c) (busy : c.status = .busy w) (alone : c.waiting = []) :
    programWrite w c.store = c.ram := by
  obtain ⟨-, same, -, -⟩ := (storeOk_busy busy).mp h
  exact same alone

theorem CountLawful.completes {w : StoreWrite} (h : CountLawful c) (busy : c.status = .busy w) (alone : c.waiting = []) :
    CountLawful (writtenCount w c) := by
  obtain ⟨lawful, -, store⟩ := h
  have same := store.written_eq busy alone
  exact ⟨lawful, by rw [writtenCount, same]; exact lawful, (storeOk_ready rfl).mpr ⟨same, alone⟩⟩

/-- A completion with commits waiting: their write, its image taken now, leaves the RAM copy. -/
theorem CountLawful.goesOn {w : StoreWrite} (h : CountLawful c) (busy : c.status = .busy w) :
    CountLawful { writtenCount w c with status := .busy (commitImage c.waiting c.ram), waiting := [] } := by
  obtain ⟨lawful, -, store⟩ := h
  obtain ⟨after, -, screen, others⟩ := (storeOk_busy busy).mp store
  have same : programWrite (commitImage c.waiting c.ram) (programWrite w c.store) = c.ram :=
    programWrite_commitImage screen others
  refine ⟨lawful, after, (storeOk_busy rfl).mpr ⟨?_, fun _ => same, congrArg (·.screenId) same, fun i _ => ?_⟩⟩
  · exact same.symm ▸ lawful
  · exact congrArg (·.licences[i]) same

/-- A failure leaves the store FAILED with its contents, whatever slots of the RAM copy become SUSPENDED. -/
theorem CountLawful.fails (h : CountLawful c) (slots : List (Fin 8)) : CountLawful { c with
    ram := suspendSlots slots c.ram, status := .failed, waiting := [], commitSeen := false, reloadDue := false } := by
  obtain ⟨lawful, stored, -⟩ := h
  exact ⟨lawful.suspends slots, stored, rfl⟩

/-- A booth reset reloads the RAM copy from the READY store that it equals, and leaves it otherwise (R142). -/
theorem CountLawful.resets (h : CountLawful c) : CountLawful (countReset c) := by
  have ram : (countReset c).ram = c.ram := by
    show (if c.status = .ready then c.store else c.ram) = c.ram
    split
    · next ready =>
      obtain ⟨equal, -⟩ := (storeOk_ready ready).mp h.stands
      exact equal
    · rfl
  have same : countReset c = { c with
      reserved := none, blanked := 0, commitSeen := false, reloadDue := (countReset c).reloadDue } := by
    rw [← ram]; rfl
  rw [same]
  exact ⟨h.ram, h.store, h.stands⟩

end

end Sys2Proof.Machine
end

section
/-! SUPPORT. Proofs/CountFrames.lean: the Count Unit with the mark and the committed flag as one view of the state, and the operations
that leave it: raises, every reaction but the Count Unit's own, the Show Clock, reads and writes, the Supervisor (R129, R135). -/

namespace Sys2Proof.Machine

/-- What the law of the Count Unit reads: the Count Unit, the mark and the committed flag. -/
def countView (s : State) : CountUnit × Mark × Bool := (s.count, s.ctl.mark, s.ctl.committed)

theorem CountsOk.of_view {s t : State} (e : countView t = countView s) (h : CountsOk s) : CountsOk t := by
  simp only [countView, Prod.mk.injEq] at e
  obtain ⟨count, mark, committed⟩ := e
  unfold CountsOk ReservationOk
  rw [count, mark, committed]; exact h

/-- The committed flag and the Count Unit as they were, and the mark. -/
theorem Uncommitted.countView {s t : State} (h : Uncommitted s t) (mark : t.ctl.mark = s.ctl.mark) :
    countView t = countView s := by
  obtain ⟨committed, count, -⟩ := h
  exact Prod.ext count (Prod.ext mark committed)

/-! ### Raises and withdrawals -/

theorem raiseFault_countView (b : GainRamp) (k : FaultKind) (s : State) : countView (raiseFault b k s) = countView s :=
  (raiseFault_uncommitted b k s).countView (raiseFault_kept b k s).mark

theorem setDetector_countView (k : FaultKind) (v : Bool) (s : State) : countView (setDetector k v s) = countView s := by
  cases k <;> rfl

theorem raiseCondition_countView (b : GainRamp) (k : FaultKind) (s : State) :
    countView (raiseCondition b k s) = countView s := by
  unfold raiseCondition; split
  · rfl
  · exact (raiseFault_countView b k _).trans (setDetector_countView k true s)

theorem withdraw_countView (k : FaultKind) (s : State) : countView (withdraw k s) = countView s :=
  setDetector_countView k false s

/-! ### The advance and the Show Clock -/

theorem takeAdvance_countView (s : State) : countView (takeAdvance s) = countView s := by rw [takeAdvance_eq]; rfl

theorem react_countView (b : GainRamp) (s : State) {r : Reaction} (h : r ≠ .count) : countView (react b s r) = countView s :=
  (react_uncommitted b s r h).countView (react_kept b s r).mark

theorem activateLanes_countView (p bound : Nat) (s : State) : countView (activateLanes p bound s) = countView s := by
  obtain ⟨_, _, e⟩ := activateLanes_does p bound s
  rw [e]; rfl

theorem syncFound_countView (s : State) : countView (syncFound s) = countView s := by rw [syncFound_eq]; rfl

theorem clockLeaves_countView (s : State) : countView (clockLeaves s) = countView s := by
  rw [clockLeaves_eq_setClock]; rfl

/-! ### Reads and writes -/

theorem LineChecked.countView {place : EssencePlace} {s t : State} (h : LineChecked place s t) :
    countView t = countView s := by
  obtain ⟨u, -, -, rfl | ⟨cause, rfl⟩⟩ := h
  · rfl
  · exact raiseFault_countView _ _ _

theorem countWithheld_countView (kind : EssenceKind) (reason : WithheldReason) (s : State) :
    countView (countWithheld kind reason s) = countView s := by cases kind <;> rfl

theorem movePictureFrontier_countView (place : EssencePlace) (s : State) :
    countView (movePictureFrontier place s) = countView s := by rw [movePictureFrontier_eq]; rfl

theorem pictureReturn_countView (txn : Nat) (x : Binding) (line : Line) (s : State) :
    countView (pictureReturn txn x line s) = countView s := by
  unfold pictureReturn; split
  · exact countWithheld_countView _ _ s
  · exact (movePictureFrontier_countView _ _).trans (checkLine_checked _ _ _ s).countView

theorem soundReturn_countView (txn : Nat) (x : Binding) (line : Line) (s : State) :
    countView (soundReturn txn x line s) = countView s := by
  unfold soundReturn; split
  · exact countWithheld_countView _ _ s
  · rfl

theorem raiseAccess_countView (cause : AccessCause) (who : Originator) (x : Binding) (line : Nat) (s : State) :
    countView (raiseAccess cause who x line s) = countView s := by
  rw [raiseAccess, noteAccess_eq]; exact raiseFault_countView _ _ _

theorem readArrives_countView (line : Nat) (who : Originator) (x : Binding) (s : State) :
    countView (readArrives line who x s) = countView s := by
  unfold readArrives; split
  · exact raiseAccess_countView _ _ _ _ _
  · rw [forwardRead_eq, countRaw_eq]; rfl
  · rw [forwardRead_eq]; rfl

theorem writeArrives_countView (line : Nat) (who : Originator) (data : Line) (enables : BitVec 64) (x : Binding)
    (s : State) : countView (writeArrives line who data enables x s) = countView s := by
  unfold writeArrives; split
  · rfl
  · exact raiseAccess_countView _ _ _ _ _

theorem joinDisplay_countView (r : ReadInFlight) (s : State) : countView (joinDisplay r s) = countView s := by
  unfold joinDisplay; split
  · split
    · rw [displayReturn_eq]; rfl
    · rfl
  · rfl

theorem readReturns_countView (r : ReadInFlight) (ans : ReadAnswer) (s : State) :
    countView (readReturns r ans s) = countView s := by
  cases ans with
  | data line =>
    unfold readReturns readData; dsimp only; split
    iterate 2 rfl
    · exact pictureReturn_countView _ _ _ _
    · exact soundReturn_countView _ _ _ _
    · exact joinDisplay_countView _ s
  | error =>
    by_cases picture : r.route = .picture
    · rw [readReturns, readError_picture picture]; rfl
    · rw [readReturns, readError_other picture]; rfl

theorem putLane_countView (lane : LaneId) (x : Lane) (s : State) : countView (putLane lane x s) = countView s := by
  cases lane <;> rfl

theorem cueToLane_countView (lane : LaneId) (c : Cue) (s : State) : countView (cueToLane lane c s) = countView s := by
  have arrives : countView (cueArrives lane c s) = countView s := by
    unfold cueArrives; dsimp only; split
    · exact (raiseFault_countView _ _ _).trans (putLane_countView _ _ s)
    · exact putLane_countView _ _ s
  unfold cueToLane; split
  iterate 2 rfl
  all_goals exact arrives

theorem cueIntake_countView (data : Line) (enables : BitVec 64) (s : State) :
    countView (cueIntake data enables s) = countView s := by
  unfold cueIntake; dsimp only; split
  · rfl
  · split
    · rfl
    · unfold cueFiltered; split
      · rfl
      all_goals exact cueToLane_countView _ _ (countTaken s)

theorem writeCompletes_countView (w : WriteInFlight) (ok : Bool) (s : State) :
    countView (writeCompletes w ok s) = countView s := by
  unfold writeCompletes; dsimp only; split
  · exact cueIntake_countView _ _ (sendUp _ (dropWrite w.txn s))
  · rfl

/-! ### The show and the keys -/

theorem showStarted_countView (s : State) : countView (showStarted s) = countView s :=
  (activateLanes_countView _ _ _).trans (clockLeaves_countView _)

theorem showResumed_countView (s : State) : countView (showResumed s) = countView s := clockLeaves_countView _

theorem expireKeys_countView (s : State) : countView (expireKeys s) = countView s := by unfold expireKeys; split <;> rfl

/-! ### The Supervisor -/

theorem faultsCleared_countView (mask : BitVec 16) (s : State) : countView (faultsCleared mask s) = countView s := by
  rw [faultsCleared_eq]; rfl

theorem watchdogFound_countView (s : State) : countView (watchdogFound s) = countView s := by
  unfold watchdogFound; split
  · exact withdraw_countView _ s
  · rfl

theorem feed_countView (s : State) : countView (feed s) = countView s := by
  unfold feed; split
  · exact watchdogFound_countView s
  · rfl

theorem writeFurther_countView (k : FaultKind) (w : PolicyWrite) (s : State) :
    countView (writeFurther k w s) = countView s := by
  cases k with
  | watchdog =>
    show countView (watchdogWritten _ _ s) = _
    unfold watchdogWritten; split
    · rfl
    · exact watchdogFound_countView s
  | _ => rfl

end Sys2Proof.Machine
end

section
/-! SUPPORT. Proofs/CountSteps.lean: every step keeps the law of the Count Unit: the commit of a showing, the Count Unit's requests,
the completions of the store, the show's requests that reserve a slot or release it, the resets (R129, R135 to R137, R139,
R140). -/

namespace Sys2Proof.Machine

/-! ### The reservation -/

/-- Without the mark full the reservation is free. -/
theorem reservationOk_of_notFull {s : State} (h : s.ctl.mark ≠ .full) : ReservationOk s := fun full => absurd full h

/-- After the commit the reservation asks nothing more. -/
theorem reservationOk_of_committed {s : State} (h : s.ctl.committed = true) : ReservationOk s :=
  fun _ uncommitted => absurd (h.symm.trans uncommitted) nofun

/-- The same show with the same reservation, a log no longer, and in the reserved slot the licence that was there. -/
theorem ReservationOk.of_reserved {s t : State} (h : ReservationOk s) (ctl : t.ctl = s.ctl)
    (reserved : t.count.reserved = s.count.reserved) (log : t.count.ram.log.length ≤ s.count.ram.log.length)
    (licence : ∀ i, s.count.reserved = some i →
      licenceOf t.count.ram.licences[i] = licenceOf s.count.ram.licences[i]) : ReservationOk t := by
  intro full uncommitted
  rw [ctl] at full uncommitted
  obtain ⟨room, i, l, slot, held, left⟩ := h full uncommitted
  exact ⟨Nat.lt_of_le_of_lt log room, i, l, reserved.trans slot, (licence i slot).trans held, left⟩

/-! ### The commit of a showing -/

theorem CountsOk.blanks {s : State} (h : CountsOk s) (n : Nat) : CountsOk (withBlanked n s) := h

/-- A commit that is due finds a slot with a showing left and room in the log, and leaves a lawful Count Unit (R135). -/
theorem CommitsShowing.countsOk {s : State} {r : ShowRecord} {i : Fin 8} (due : CommitsShowing s r i) (h : CountsOk s)
    (b : GainRamp) : CountsOk (countAdvance b s) := by
  obtain ⟨n, blank, -⟩ := countBlanked_eq s
  rw [countAdvance_showing due, blank]
  obtain ⟨lawful, reservation⟩ := (countsOk_iff _).mp (h.blanks n)
  obtain ⟨-, unset⟩ := Bool.and_eq_true_iff.mp due.due
  obtain ⟨room, j, l, slot, licence, left⟩ := reservation (eq_of_beq due.full) ((Bool.not_eq_true' _).mp unset)
  obtain rfl : i = j := Option.some.inj (due.reserved.symm.trans slot)
  obtain ⟨count, committed, -⟩ := storeCommit_does b i (showingTaken (withBlanked n s) r i)
  refine (countsOk_iff _).mpr ⟨?_, reservationOk_of_committed committed⟩
  rw [count]
  exact lawful.commits (showingImage_lawful lawful.ram r room licence left)

theorem countAdvance_countsOk (b : GainRamp) {s : State} (h : CountsOk s) : CountsOk (countAdvance b s) := by
  by_cases made : CommitMade s
  · obtain ⟨full, due, recorded, reserved⟩ := made
    obtain ⟨r, record⟩ := Option.isSome_iff_exists.mp recorded
    obtain ⟨i, slot⟩ := Option.isSome_iff_exists.mp reserved
    exact CommitsShowing.countsOk ⟨full, due, record, slot⟩ h b
  · obtain ⟨n, blank, -⟩ := countBlanked_eq s
    rcases countAdvance_uncommitted b made with e | e <;> rw [e]
    · exact h
    · rw [blank]; exact h.blanks n

/-! ### The advance and the Show Clock -/

/-- An advance keeps the law, in every order of its reactions: the Count Unit's alone touches what it reads. -/
theorem advance_countsOk {s : State} (h : CountsOk s) (reactions : List Reaction) : CountsOk (advance reactions s) := by
  refine advance_keeps (h.of_view (takeAdvance_countView _)) fun r _ t ok => ?_
  by_cases own : r = .count
  · subst own; exact countAdvance_countsOk _ ok
  · exact ok.of_view (react_countView _ t own)

theorem miss_countsOk {s : State} (h : CountsOk s) : CountsOk (miss s) := by
  obtain ⟨reactions, -, e⟩ := miss_eq s
  rw [e]; exact advance_countsOk (s := s.setClock (missClock s)) h reactions

theorem acceptEdge_countsOk {s : State} (h : CountsOk s) : CountsOk (acceptEdge s) := by
  have found : countView (syncFound (s.setClock (acceptClock s))) = countView s :=
    syncFound_countView (s.setClock (acceptClock s))
  exact advance_countsOk (h.of_view found) _

theorem clockEdge_countsOk {s : State} (h : CountsOk s) : CountsOk (clockEdge s) := by
  have counted : CountsOk (countEdge s) := h
  unfold clockEdge; split
  · exact counted
  · exact h.of_view (syncFound_countView _)
  · split
    · exact counted
    · unfold judgeEdge; split
      · exact counted
      · split
        · unfold lateEdge; dsimp only; split <;> exact miss_countsOk counted
        · exact acceptEdge_countsOk counted

/-! ### Requests that write the store -/

/-- A request that passes the two checks that every writing request begins with, and its own, finds the store READY. -/
theorem ready_of_passed {s : State} {own : List Check} (passed : firstFailure (storeChecks s ++ own) = none) :
    s.count.status = .ready ∧ ∀ c ∈ own, c.pass = true := by
  obtain ⟨store, rest⟩ := List.forall_mem_append.mp (firstFailure_none.mp passed)
  refine ⟨?_, rest⟩
  simp only [storeChecks, List.forall_mem_cons, storeNotFailed, storeNotBusy] at store
  cases status : s.count.status <;> simp [status] at store ⊢

theorem CountsOk.lawful {s : State} (h : CountsOk s) : CountLawful s.count :=
  have ⟨lawful, _⟩ := (countsOk_iff s).mp h
  lawful

/-- A link write started from READY, of a RAM copy changed in what the write covers alone; the log no longer, and the
reserved slot as it was. -/
theorem CountsOk.startsWrite {s t : State} (h : CountsOk s) (ready : s.count.status = .ready) {w : StoreWrite}
    (lawful : ImageOk (programWrite w s.count.ram)) (ctl : t.ctl = s.ctl)
    (count : t.count = { s.count with ram := programWrite w s.count.ram, status := .busy w })
    (log : (programWrite w s.count.ram).log.length ≤ s.count.ram.log.length)
    (reserved : ∀ i, s.count.reserved = some i → (programWrite w s.count.ram).licences[i] = s.count.ram.licences[i]) :
    CountsOk t := by
  obtain ⟨unit, reservation⟩ := (countsOk_iff s).mp h
  refine (countsOk_iff t).mpr ⟨?_, reservation.of_reserved ctl ?_ ?_ fun i slot => ?_⟩
  · rw [count]; exact unit.startsWrite ready lawful rfl
  · rw [count]
  · rw [count]; exact log
  · rw [count]; exact congrArg licenceOf (reserved i slot)

/-- A slot that is not reserved replaced, and its link write started. -/
theorem CountsOk.writesSlot {s t : State} (h : CountsOk s) (ready : s.count.status = .ready) {i : Fin 8} {x : LicenceSlot}
    (free : (s.count.reserved != some i) = true) (counts : licenceCounts x)
    (used : namingRecords s.count.ram.log i ≤ usedOf x) (ctl : t.ctl = s.ctl)
    (count : t.count = { s.count with
      ram := { s.count.ram with licences := vput s.count.ram.licences i x }, status := .busy (.slot i x) }) :
    CountsOk t := by
  have lawful := h.lawful.ram.putLicence counts used
  refine h.startsWrite (w := .slot i x) ready lawful ctl count (Nat.le_refl _) fun j slot => vput_get_other _ _ ?_
  rintro rfl
  exact bne_iff_ne.mp free slot

/-- What a blob unwraps to, with the showings used carried forward, adds up (R129, R132). -/
theorem slotOfLicence_counts {p : PlainLicence} {used now : Nat} (ranges : licenceRangesOk p now = true)
    (fits : used ≤ p.granted) : licenceCounts (slotOfLicence p used) := by
  simp only [licenceRangesOk, Bool.and_eq_true, decide_eq_true_eq] at ranges
  obtain ⟨⟨⟨⟨⟨some, most⟩, -⟩, -⟩, -⟩, -⟩ := ranges
  intro l hl
  obtain rfl := Option.some.inj hl
  exact ⟨Nat.sub_add_cancel fits, some, most⟩

theorem licenceLoaded_countsOk {s : State} (h : CountsOk s) {i : Fin 8} {p : PlainLicence} {check : BitVec 32}
    (passed : firstFailure (licenceChecks i p check s) = none) : CountsOk (licenceLoaded i p s) := by
  obtain ⟨ready, own⟩ := ready_of_passed passed
  simp only [List.forall_mem_cons] at own
  obtain ⟨free, -, -, ranges, -, fits, -⟩ := own
  obtain ⟨-, -, -, -, -, naming⟩ := h.lawful.ram
  exact h.writesSlot ready free (slotOfLicence_counts ranges (of_decide_eq_true fits)) (naming i) rfl rfl

/-- A slot that no record names can become EMPTY (R133). -/
theorem licenceDeleted_countsOk {s : State} (h : CountsOk s) {i : Fin 8}
    (passed : firstFailure (deleteChecks i s) = none) : CountsOk (licenceDeleted i s) := by
  obtain ⟨ready, own⟩ := ready_of_passed passed
  simp only [List.forall_mem_cons, logNames_eq, List.all_eq_true, decide_eq_true_eq] at own
  obtain ⟨free, unnamed, -⟩ := own
  have none : namingRecords s.count.ram.log i = 0 := by
    unfold namingRecords
    rw [List.filter_eq_nil_iff.mpr fun x hx => by simpa using unnamed x hx]; rfl
  unfold licenceDeleted; split
  · exact h
  · exact h.writesSlot (x := .empty) ready free nofun (Nat.le_of_eq none) rfl rfl

theorem logPopped_countsOk {s : State} (h : CountsOk s) (ready : s.count.status = .ready) : CountsOk (logPopped s) :=
  h.startsWrite (w := .log s.count.ram.log.tail) ready h.lawful.ram.dropOldest rfl rfl (List.tail_sublist _).length_le
    fun _ _ => rfl

theorem screenSet_countsOk {s : State} (h : CountsOk s) (ready : s.count.status = .ready) (id : BitVec 16) :
    CountsOk (screenSet id s) :=
  h.startsWrite (w := .screen id) ready h.lawful.ram rfl rfl (Nat.le_refl _) fun _ _ => rfl

/-! ### The completions of the store -/

/-- A write that completes leaves the RAM copy, whether commits wait, a reload is owed, or neither. -/
theorem storeCompletes_countsOk {s : State} (h : CountsOk s) {w : StoreWrite} (busy : s.count.status = .busy w) :
    CountsOk (storeCompletes w s) := by
  obtain ⟨unit, reservation⟩ := (countsOk_iff s).mp h
  by_cases alone : s.count.waiting = []
  · have written := unit.completes busy alone
    cases owed : s.count.reloadDue with
    | false => rw [storeCompletes_ready w alone owed]; exact (countsOk_iff _).mpr ⟨written, reservation⟩
    | true =>
      have same : programWrite w s.count.store = s.count.ram := unit.stands.written_eq busy alone
      rw [storeCompletes_reload w alone owed, loadRam_eq]
      refine (countsOk_iff _).mpr ⟨⟨written.store, written.store, rfl, alone⟩, ?_⟩
      refine reservation.of_reserved rfl rfl ?_ fun i _ => ?_
      · exact Nat.le_of_eq (congrArg (·.log.length) same)
      · exact congrArg (fun m : CountImage => licenceOf m.licences[i]) same
  · rw [storeCompletes_waiting w alone]
    exact (countsOk_iff _).mpr ⟨unit.goesOn busy, reservation⟩

/-- A write that fails suspends slots of the RAM copy, each with its licence. -/
theorem storeFails_countsOk {s : State} (h : CountsOk s) (w : StoreWrite) : CountsOk (storeFails w s) := by
  obtain ⟨unit, reservation⟩ := (countsOk_iff s).mp h
  have failed : CountsOk (failedStore w s) := by
    refine (countsOk_iff _).mpr ⟨unit.fails _, reservation.of_reserved rfl rfl (Nat.le_refl _) fun i _ => ?_⟩
    exact licenceOf_suspendSlots _ _ i
  have once := failed.of_view (raiseFault_countView s.sound.ramp .storeFail _)
  obtain ⟨-, e | e⟩ := storeFails_cases w s <;> rw [e]
  · exact once
  · exact once.of_view (raiseFault_countView _ _ _)

/-! ### The show's requests and the resets -/

/-- A lawful Count Unit under a show that is not marked full. -/
theorem countsOk_of_notFull {t : State} (lawful : CountLawful t.count) (mark : t.ctl.mark ≠ .full) : CountsOk t :=
  (countsOk_iff t).mpr ⟨lawful, reservationOk_of_notFull mark⟩

theorem showLoaded_countsOk {s : State} (h : CountsOk s) (w : ShowWrite) : CountsOk (showLoaded w (quiet s)) := by
  rw [showLoaded_eq]; exact countsOk_of_notFull h.lawful nofun

/-- PRIME reserves a slot with a showing left, the log having room (R43, checks 3, 6 and 8). -/
theorem showPrimed_countsOk {s : State} (h : CountsOk s) {r : ShowRecord} {more : List Check}
    (passed : firstFailure (primeChecks r (quiet s) ++ more) = none) : CountsOk (showPrimed r (quiet s)) := by
  obtain ⟨checks, -⟩ := List.forall_mem_append.mp (firstFailure_none.mp passed)
  simp only [primeChecks, List.forall_mem_cons, decide_eq_true_eq, isActive_eq] at checks
  obtain ⟨-, -, active, -, -, left, -, room, -⟩ := checks
  rw [showPrimed_eq]
  exact (countsOk_iff _).mpr ⟨h.lawful, fun _ _ => ⟨room, _, _, rfl, congrArg licenceOf active, left⟩⟩

theorem previewPrimed_countsOk {s : State} (h : CountsOk s) : CountsOk (previewPrimed (quiet s)) := by
  rw [previewPrimed_eq]; exact countsOk_of_notFull h.lawful nofun

theorem showStopped_countsOk {s : State} (h : CountsOk s) : CountsOk (showStopped s) := by
  have lawful : CountLawful (releaseKeys s).count := by rw [releaseKeys_eq_setKeys]; exact h.lawful
  unfold showStopped; dsimp only
  rw [stopBlocks_eq, withdrawShow_eq]
  exact countsOk_of_notFull lawful nofun

/-- A LOADED show has no mark, so that UNLOAD clears the committed flag of no full show. -/
theorem showUnloaded_countsOk {s : State} (h : CountsOk s) (playback : ShowOk s) (loaded : s.ctl.state = .loaded) :
    CountsOk (showUnloaded s) := by
  obtain ⟨-, marked, -, -, -⟩ := playback
  have unmarked : s.ctl.mark = .none := marked.mpr (.inr loaded)
  refine countsOk_of_notFull h.lawful ?_
  show s.ctl.mark ≠ .full
  rw [unmarked]; exact nofun

theorem boothResetAll_countsOk {s : State} (h : CountsOk s) : CountsOk (boothResetAll s) := by
  rw [boothResetAll_eq]; exact countsOk_of_notFull h.lawful.resets nofun

/-- A power-on reset takes the RAM copy from the store, or leaves it empty where the store is not readable (R141). -/
theorem powerOnReset_countsOk {s : State} (h : CountsOk s) (supplyHeld readable : Bool) (straps : BitVec 2) :
    CountsOk (if readable then loadRam (powerBlocks supplyHeld readable straps s)
      else powerBlocks supplyHeld readable straps s) := by
  have stored := h.lawful.store
  cases readable with
  | false => exact countsOk_of_notFull ⟨imageOk_new, stored, rfl⟩ nofun
  | true =>
    rw [if_pos rfl, loadRam_eq]
    exact countsOk_of_notFull ⟨stored, stored, rfl, rfl⟩ nofun

/-! ### Events and requests -/

section
variable {s : State} (h : CountsOk s) {n : Nat} {checks : State → List Check} {f : State → State}
include h

theorem whenOn_countsOk (does : CountsOk (f (quiet s))) : CountsOk (whenOn s f) := whenOn_keeps h does

theorem onLink_countsOk (does : CountsOk (f (quiet s))) : CountsOk (onLink n s f) := onLink_keeps h does fun _ => id

/-- A request that, carried out, keeps the law. -/
theorem request_countsOk (does : firstFailure (checks (quiet s)) = none → CountsOk (f (quiet s))) :
    CountsOk (onLink n s fun s => checked (checks s) f s) := onLink_countsOk h (checked_keeps does fun _ _ => h)

/-- An event whose effect comes only when it is due keeps what its effect keeps. -/
theorem due_countsOk {due : State → Bool} (does : CountsOk (f (quiet s))) :
    CountsOk (whenOn s fun s => if due s then f s else s) := by
  apply whenOn_countsOk h; split
  · exact does
  · exact h

end

/-! ### Every command -/

/-- Every command has a next state, which keeps the law of the Count Unit. -/
theorem exec_countsOk (c : Instr) {s : State} (playback : ShowOk s) (h : CountsOk s) :
    ∃ t, exec c s = .next t ∧ CountsOk t := by
  have quieted : CountsOk (quiet s) := h
  cases c with
  | lineRead addr who => exact ⟨_, rfl, whenOn_countsOk h (quieted.of_view (readArrives_countView _ _ _ _))⟩
  | lineWrite addr who data enables =>
    exact ⟨_, rfl, whenOn_countsOk h (quieted.of_view (writeArrives_countView _ _ _ _ _ _))⟩
  | readReturn txn ans =>
    refine ⟨_, rfl, whenOn_countsOk h ?_⟩; split
    · exact quieted.of_view (readReturns_countView _ _ _)
    · exact h
  | sideReadReturn txn lane ans =>
    refine ⟨_, rfl, whenOn_countsOk h ?_⟩; split
    · exact quieted.of_view (joinDisplay_countView _ _)
    · exact h
  | writeCompletion txn ok =>
    refine ⟨_, rfl, whenOn_countsOk h ?_⟩; split
    · exact quieted.of_view (writeCompletes_countView _ _ _)
    · exact h
  | fsyncInEdge =>
    refine ⟨_, rfl, whenOn_countsOk h ?_⟩; split
    · exact h
    · exact clockEdge_countsOk quieted
  | windowExpiry => exact ⟨_, rfl, due_countsOk h (miss_countsOk quieted)⟩
  | anchorTimeout => exact ⟨_, rfl, due_countsOk h (quieted.of_view (raiseCondition_countView _ _ _))⟩
  | internalExpiry => exact ⟨_, rfl, due_countsOk h (advance_countsOk (s := (quiet s).setClock _) h _)⟩
  | loadShow w => exact ⟨_, rfl, request_countsOk h fun _ => showLoaded_countsOk h w⟩
  | prime =>
    refine ⟨_, rfl, onLink_countsOk h ?_⟩; split
    · exact h
    · exact checked_keeps (showPrimed_countsOk h) fun _ _ => h
  | primePreview => exact ⟨_, rfl, request_countsOk h fun _ => previewPrimed_countsOk h⟩
  | start => exact ⟨_, rfl, request_countsOk h fun _ => quieted.of_view (showStarted_countView _)⟩
  | resume => exact ⟨_, rfl, request_countsOk h fun _ => quieted.of_view (showResumed_countView _)⟩
  | stop => exact ⟨_, rfl, request_countsOk h fun _ => showStopped_countsOk quieted⟩
  | unload =>
    refine ⟨_, rfl, request_countsOk h fun passed => ?_⟩
    exact showUnloaded_countsOk quieted playback (stateCheck_pass (firstFailure_none.mp passed _ List.mem_cons_self))
  | keyExpiry index => exact ⟨_, rfl, due_countsOk h h⟩
  | secureTick =>
    refine ⟨_, rfl, ?_⟩; split
    · dsimp only; split
      · exact h.of_view (expireKeys_countView ((quiet s).setSecure _))
      · exact h
    · exact h
  | trimYearClose => refine ⟨_, rfl, ?_⟩; split <;> exact h
  | trimTime d => exact ⟨_, rfl, request_countsOk h fun _ => h.of_view (expireKeys_countView ((quiet s).setSecure _))⟩
  | loadLicence index blob check => exact ⟨_, rfl, request_countsOk h (licenceLoaded_countsOk quieted)⟩
  | deleteLicence index => exact ⟨_, rfl, request_countsOk h (licenceDeleted_countsOk quieted)⟩
  | popLog seq =>
    refine ⟨_, rfl, request_countsOk h fun passed => ?_⟩
    obtain ⟨ready, -⟩ := ready_of_passed passed
    exact logPopped_countsOk quieted ready
  | setScreen id =>
    refine ⟨_, rfl, request_countsOk h fun passed => ?_⟩
    obtain ⟨ready, -⟩ := ready_of_passed passed
    exact screenSet_countsOk quieted ready id
  | storeWriteCompletion =>
    refine ⟨_, rfl, whenOn_countsOk h ?_⟩; split
    · next busy => exact storeCompletes_countsOk quieted busy
    all_goals exact h
  | storeWriteFailure =>
    refine ⟨_, rfl, whenOn_countsOk h ?_⟩; split
    · exact storeFails_countsOk quieted _
    all_goals exact h
  | clearFaults mask => exact ⟨_, rfl, onLink_countsOk h (quieted.of_view (faultsCleared_countView mask _))⟩
  | tickle => exact ⟨_, rfl, onLink_countsOk h (quieted.of_view (feed_countView _))⟩
  | wdTick =>
    refine ⟨_, rfl, whenOn_countsOk h ?_⟩; split
    · exact h
    · exact h.of_view (feed_countView (setWatchdog _ (quiet s)))
  | watchdogExpiry => exact ⟨_, rfl, due_countsOk h (quieted.of_view (raiseCondition_countView _ _ _))⟩
  | reset => exact ⟨_, rfl, onLink_countsOk h (boothResetAll_countsOk quieted)⟩
  | boothReset midTransfer =>
    refine ⟨_, rfl, ?_⟩; dsimp only; split
    · exact boothResetAll_countsOk (s := (quiet s).setPower _) h
    · exact h
  | powerOnReset supplyHeld readable straps => exact ⟨_, rfl, powerOnReset_countsOk h supplyHeld readable straps⟩
  | writeLowMark lane mark =>
    exact ⟨_, rfl, request_countsOk h fun _ => quieted.of_view (putLane_countView lane _ _)⟩
  | writePolicy kind w =>
    exact ⟨_, rfl, request_countsOk h fun _ => h.of_view (writeFurther_countView kind w (putPolicy kind _ (quiet s)))⟩
  | unrecognisedPacket op table index data =>
    refine ⟨_, rfl, onLink_countsOk h ?_⟩; split
    · unfold dispatchRefused; split <;> exact h
    · exact h
  | hold | regionRecord index w | loadKey index blob check | purgeKey index | setTime t | writeClock window lossLimit =>
    exact ⟨_, rfl, request_countsOk h fun _ => h⟩
  | setMute mask | laneEnable bits | ackEvents mask | writeEvents enables selects | readTransfer count =>
    exact ⟨_, rfl, onLink_countsOk h h⟩
  | writeFilter index w | writeDefaultAction action | readRecord table index | badCrc packet | badLengthTruncated staged =>
    refine ⟨_, rfl, onLink_countsOk h ?_⟩; split <;> exact h
  | brstNRelease | lossOfPower backupFails => exact ⟨_, rfl, h⟩

theorem idle_countsOk {s : State} (h : CountsOk s) : CountsOk (idle s) := by
  unfold idle; split <;> exact h

/-- Settles O60: a step is an idle microsecond or a command, and each keeps the law. -/
theorem stepsKeepTheCounts : Obligations.StepsKeepTheCounts := by
  unfold Obligations.StepsKeepTheCounts
  refine ⟨fun s t stepped playback h => ?_, fun x => ⟨fun empty => by rw [empty]; rfl, fun _ => usedOf_licence⟩,
    fun w m => by cases w <;> rfl⟩
  unfold step at stepped
  split at stepped
  · exact Host.Outcome.next.inj stepped ▸ idle_countsOk h
  · next c rest _ =>
    obtain ⟨u, hu, kept⟩ := exec_countsOk c (s := s.setPending rest) playback h
    exact Host.Outcome.next.inj (hu.symm.trans stepped) ▸ kept

end Sys2Proof.Machine
end

section
/-! SUPPORT. Proofs/Watchdog.lean: the watchdog as states: the withdrawal of its condition, a feed, its expiry, and the commands TICKLE,
WD_TICK and WATCHDOG_EXPIRY (R145, R147, R151, R154). -/

namespace Sys2Proof.Machine

/-! ### The condition withdrawn, and a feed -/

/-- The WATCHDOG condition is not active, and where it was active the withdrawal is reported (R145, R154). -/
theorem watchdogFound_eq (s : State) : watchdogFound s = { s with
    sup := { s.sup with
      faults := if s.sup.watchdog.condition = true then (withdrawn [.watchdog] s.sup).faults else s.sup.faults
      watchdog := { s.sup.watchdog with condition := false } } } := by
  unfold watchdogFound
  cases h : s.sup.watchdog.condition
  · have same : { s.sup.watchdog with condition := false } = s.sup.watchdog := by rw [← h]
    rw [same]; rfl
  · rfl

/-- The Supervisor after a feed at a time of the timebase (R154). -/
def fedSup (now : Time) (x : Supervisor) : Supervisor :=
  if x.watchdog.enabled = true then
    { x with
      faults := if x.watchdog.condition = true then (withdrawn [.watchdog] x).faults else x.faults
      watchdog := { x.watchdog with
        condition := false, deadline := some (now + BitVec.ofNat 48 (x.watchdog.interval * 1000000)) } }
  else x

theorem feed_eq (s : State) : feed s = { s with sup := fedSup s.clock.timebase s.sup } := by
  unfold feed fedSup
  cases s.sup.watchdog.enabled
  · rfl
  · simp only [if_true, watchdogFound_eq]; rfl

/-! ### The three commands -/

theorem exec_tickle {s : State} (linked : Linked s) : exec .tickle s = .next { s with
    sup := fedSup s.clock.timebase s.sup
    link := answered s.link .ok 0
    out := { acked := 6 } } :=
  request_taken linked (by rw [feed_eq]; rfl)

/-- An edge of WD_TICK is a feed, unless BRST_N is low or the microsecond has had one (R154; log 25). -/
theorem exec_wdTick {s : State} (on : s.power.on = true) : exec .wdTick s = .next
    (if s.power.brstLow || s.sup.watchdog.tickSeen then { s with out := {} }
    else { s with
      sup := fedSup s.clock.timebase { s.sup with watchdog := { s.sup.watchdog with tickSeen := true } }, out := {} }) := by
  refine congrArg _ ((whenOn_on on _).trans ?_)
  rw [feed_eq]; rfl

theorem exec_watchdogExpiry {s : State} (on : s.power.on = true) : exec .watchdogExpiry s =
    .next (if watchdogDue s then watchdogExpires (quiet s) else quiet s) :=
  congrArg Host.Outcome.next (whenOn_on on _)

/-- An expiry under an active condition removes the deadline alone: the episode has had its raise (R154). -/
theorem watchdogExpires_active {s : State} (active : s.sup.watchdog.condition = true) : watchdogExpires (quiet s) = { s with
    sup := { s.sup with watchdog := { s.sup.watchdog with deadline := none } }, out := {} } :=
  raiseCondition_active (k := .watchdog) (s := setWatchdog { s.sup.watchdog with deadline := none } (quiet s)) active s.sound.ramp

/-- An expiry with the condition not active begins an episode, and raises WATCHDOG (R147, R151, R154). -/
theorem watchdogExpires_fresh {s : State} (inactive : s.sup.watchdog.condition = false) : watchdogExpires (quiet s) =
    afterRaise s.sound.ramp .watchdog { s with
      sup := { s.sup with watchdog := { s.sup.watchdog with deadline := none, condition := true } }, out := {} } :=
  raiseCondition_fresh (k := .watchdog) (s := setWatchdog { s.sup.watchdog with deadline := none } (quiet s)) inactive s.sound.ramp

/-- Settles O44: the two feeds, the edges of WD_TICK that are none, and the expiry by whether it is due and the condition active. -/
theorem watchdogFeedsAndExpires : Obligations.WatchdogFeedsAndExpires := by
  unfold Obligations.WatchdogFeedsAndExpires
  refine fun s on => ⟨exec_tickle, fun high fresh => ?_, fun noFeed => ?_, fun due active => ?_, fun due inactive => ?_,
    fun early => ?_⟩
  · rw [exec_wdTick on, high, fresh]; rfl
  · rw [exec_wdTick on, if_pos (Bool.or_eq_true_iff.mpr noFeed)]
  · rw [exec_watchdogExpiry on, if_pos due, watchdogExpires_active active]
  · rw [exec_watchdogExpiry on, if_pos due, watchdogExpires_fresh inactive]
  · rw [exec_watchdogExpiry on, early]; rfl

end Sys2Proof.Machine
end

section
/-! SUPPORT. Proofs/Policies.lean: WRITE_POLICY: its checks row by row, what an accepted record leaves, the policies that a kind allows
and their codes (R85, R92, R97, R145, R146, R154, Table 11-18). -/

namespace Sys2Proof.Machine

/-! ### Policies and their codes -/

/-- The codes of Table 11-18. -/
theorem policyOf_eq (b : Byte) : policyOf b =
    if b = 0#8 then some .ignore else if b = 1#8 then some .report else if b = 2#8 then some .timed
    else if b = 3#8 then some .latch else none := by
  simp only [policyOf, ← BitVec.toNat_inj, BitVec.toNat_ofNat]
  rcases b.toNat with _ | _ | _ | _ | n <;> simp

/-! ### The checks (R146) -/

/-- The policy byte names a policy that the kind allows. -/
theorem policyByteOk_eq (k : FaultKind) (b : Byte) : policyByteOk k b = (policyOf b).any (policyAllowed k) := by
  unfold policyByteOk; cases policyOf b <;> rfl

/-! ### An accepted record -/

/-- An accepted WATCHDOG record at the watchdog: enabled, a fresh deadline; disabled, none, and the condition withdrawn (R154). -/
theorem watchdogWritten_eq (enabled : Bool) (interval : Nat) (s : State) : watchdogWritten enabled interval s = { s with
    sup := { s.sup with
      faults := if enabled = false ∧ s.sup.watchdog.condition = true then (withdrawn [.watchdog] s.sup).faults
        else s.sup.faults
      watchdog := { s.sup.watchdog with
        enabled := enabled, interval := interval
        deadline := if enabled then some (s.clock.timebase + BitVec.ofNat 48 (interval * 1000000)) else none
        condition := s.sup.watchdog.condition && enabled } } } := by
  unfold watchdogWritten
  cases enabled
  · simp only [watchdogFound_eq, Bool.and_false, true_and]; rfl
  · rw [Bool.and_true]; rfl

/-- The further fields of a record, each stored at the block of its kind (R85, R92, R97, R154). -/
theorem writeFurther_eq (k : FaultKind) (w : PolicyWrite) (s : State) : writeFurther k w s = { s with
    sup := { s.sup with
      faults := if k = .watchdog ∧ w.byte3.getLsbD 0 = false ∧ s.sup.watchdog.condition = true then
        (withdrawn [.watchdog] s.sup).faults else s.sup.faults
      watchdog := if k = .watchdog then
          { s.sup.watchdog with
            enabled := w.byte3.getLsbD 0, interval := w.byte4.toNat
            deadline := if w.byte3.getLsbD 0 then
              some (s.clock.timebase + BitVec.ofNat 48 (w.byte4.toNat * 1000000)) else none
            condition := s.sup.watchdog.condition && w.byte3.getLsbD 0 }
        else s.sup.watchdog }
    unpack := if k = .pictureStarved then { s.unpack with limit := w.byte3.toNat } else s.unpack
    sound := if k = .soundStarved then { s.sound with limit := w.byte3.toNat, rampLength := rampLengthOf w } else s.sound } := by
  cases k
  case watchdog =>
    refine (watchdogWritten_eq (w.byte3.getLsbD 0) w.byte4.toNat s).trans ?_
    simp only [true_and]; rfl
  all_goals rfl

/-- Settles O45: the record is judged by R146's rows, stored at its own kind, and the codes and the rows of R145's table. -/
theorem writePolicyFollowsItsChecks : Obligations.WritePolicyFollowsItsChecks := by
  unfold Obligations.WritePolicyFollowsItsChecks
  refine ⟨fun k w s linked => ?_, fun k p => ?_, policyOf_eq⟩
  · refine request_judged linked (checked_eq_judged
      (.cons ⟨policyByteOk_eq k w.policy, rfl, rfl⟩ (.cons ⟨rfl, rfl, rfl⟩ (.cons ⟨?further, rfl, rfl⟩ .nil))) ?accepted)
    case further => cases k <;> rfl
    case accepted => rw [writeFurther_eq]; rfl
  · cases k <;> cases p <;> decide

end Sys2Proof.Machine
end

section
/-! SUPPORT. Proofs/OutputPins.lean: the output condition by its causes, and the pins BOOTH_FAULT_N, ATTN_A and ATTN_B (R148, R155,
R162). -/

namespace Sys2Proof.Machine

/-! ### The output condition (R148) -/

theorem outputCondition_latched_iff (s : State) : outputCondition s = .blankLatched ↔ ∃ k, (faultOf s k).latched = true := by
  rw [← anyLatched_iff]; unfold outputCondition
  cases anyLatched s
  · by_cases blank : 0 < s.sup.countdown <;> simp [blank]
  · simp

theorem anyLatched_false_iff (s : State) : anyLatched s = false ↔ ∀ k, (faultOf s k).latched = false := by
  simp [← Bool.not_eq_true, anyLatched_iff]

theorem outputCondition_timed_iff (s : State) :
    outputCondition s = .blankTimed ↔ (∀ k, (faultOf s k).latched = false) ∧ 0 < s.sup.countdown := by
  rw [← anyLatched_false_iff]; unfold outputCondition
  cases anyLatched s
  · by_cases blank : 0 < s.sup.countdown <;> simp [blank]
  · simp

/-! ### The pins -/

theorem boothFaultLow_iff (s : State) : boothFaultLow s = true ↔
    outputCondition s ≠ .openOutput ∨ ∃ k, (faultOf s k).flag = true ∧ (policyOfKind s k).lineFlag = true := by
  rw [boothFaultLow, Bool.or_eq_true, bne_iff_ne, List.any_eq_true]
  simp [mem_allKinds]

/-- A mask is not empty exactly when it holds a bit. -/
theorem bne_zero_iff {w : Nat} (x : BitVec w) : (x != 0#w) = true ↔ ∃ e, e < w ∧ x.getLsbD e = true := by
  rw [bne_iff_ne, ne_eq, BitVec.eq_of_getLsbD_eq_iff]
  simp

theorem attnA_iff (s : State) : attnA s = true ↔ ∃ e, e < 7 ∧ s.link.eventPending.getLsbD e = true ∧
    s.link.eventEnables.getLsbD e = true ∧ s.link.eventSelects.getLsbD e = false := by
  rw [attnA, bne_zero_iff]
  refine exists_congr fun e => and_congr_right fun inside => ?_
  simp [inside, and_assoc]

theorem attnB_iff (s : State) : attnB s = true ↔ ∃ e, e < 7 ∧ s.link.eventPending.getLsbD e = true ∧
    s.link.eventEnables.getLsbD e = true ∧ s.link.eventSelects.getLsbD e = true := by
  rw [attnB, bne_zero_iff]
  refine exists_congr fun e => and_congr_right fun _ => ?_
  simp [and_assoc]

/-- Settles O46: the output condition by R148's causes, BOOTH_FAULT_N by R155's, and ATTN_A and ATTN_B bit by bit. -/
theorem outputPinsFollowTheirCauses : Obligations.OutputPinsFollowTheirCauses := by
  unfold Obligations.OutputPinsFollowTheirCauses
  exact ⟨fun s => ⟨boothFaultLow_iff s, outputCondition_latched_iff s, outputCondition_timed_iff s, attnA_iff s, attnB_iff s⟩,
    fun _ _ => ⟨rfl, rfl⟩⟩

end Sys2Proof.Machine
end

section
/-! SUPPORT. Proofs/Ident.lean: the IDENT record, which is read-only and names the part in every state (R164). -/

namespace Sys2Proof.Machine

theorem linkAddress_bounds (s : State) : 88 ≤ linkAddress s ∧ linkAddress s ≤ 91 := by
  have := s.power.straps.isLt
  unfold linkAddress; omega

theorem oneByte_linkAddress_toNat (s : State) : (oneByte (linkAddress s)).toNat = 88 + s.power.straps.toNat := by
  have bounds := linkAddress_bounds s
  rw [oneByte, BitVec.toNat_ofNat, Nat.mod_eq_of_lt (by omega)]; rfl

/-- The IDENT record as read (R164). -/
theorem recordBytes_ident (s : State) : recordBytes s .ident 0 = some [2#8, 128#8, 1#8, oneByte (linkAddress s), 24#8, 16#8, 8#8,
    64#8, 2#8, 16#8, 8#8, 9#8, 0#8, 0#8, 0#8, 0#8] := rfl

/-- Settles O51: the record read in a state that receives the request, and the refusal of every write of it. -/
theorem identNamesThePart : Obligations.IdentNamesThePart := by
  unfold Obligations.IdentNamesThePart
  refine ⟨fun s linked => ⟨oneByte (linkAddress s), oneByte_linkAddress_toNat s, ?_, ?_,
    exec_readRecord_some linked (recordBytes_ident s)⟩, linkRefusal_readOnly rfl rfl⟩
  · rw [oneByte_linkAddress_toNat]; exact (linkAddress_bounds s).1
  · rw [oneByte_linkAddress_toNat]; exact (linkAddress_bounds s).2

end Sys2Proof.Machine
end

section
/-! SUPPORT. Proofs/RequestFields.lean: the fields of laid data read back, the lengths of the data of the link's requests, and the
records that their writers read back from it (R165, Tables 11-1, 11-13, 11-16 to 11-18). -/

namespace Sys2Proof.Machine

/-! ### A number as bytes, and read again -/

theorem beNat_cons (b : Byte) (bs : List Byte) : beNat (b :: bs) = b.toNat * 256 ^ bs.length + beNat bs := by
  have shift (start : Nat) : bs.foldl (fun acc b => acc * 256 + b.toNat) start = start * 256 ^ bs.length + beNat bs := by
    induction bs generalizing start with
    | nil => simp [beNat]
    | cons c cs ih =>
      rw [beNat, List.foldl_cons, List.foldl_cons, ih, ih (0 * 256 + c.toNat), List.length_cons]
      ring
  simpa [beNat] using shift (0 * 256 + b.toNat)

theorem beNat_beBytes (n v : Nat) : beNat (beBytes n v) = v % 256 ^ n := by
  induction n with
  | zero => simp [beBytes, beNat, Nat.mod_one]
  | succ n ih =>
    rw [beBytes, beNat_cons, ih, length_beBytes, BitVec.toNat_ofNat, pow_succ 256 n, Nat.mod_mul]
    exact (Nat.add_comm _ _).trans (congrArg _ (Nat.mul_comm _ _))

/-! ### One field of laid data -/

@[simp] theorem drop_laid_cons {n v : Nat} {fields : List (Nat × Nat)} {k : Nat} (past : n ≤ k) :
    (laid ((n, v) :: fields)).drop k = (laid fields).drop (k - n) := by
  rw [laid_cons, List.drop_append, length_beBytes, List.drop_eq_nil_of_le ((length_beBytes n v).trans_le past), List.nil_append]

@[simp] theorem tail_laid_cons (v : Nat) (fields : List (Nat × Nat)) : (laid ((1, v) :: fields)).tail = laid fields := by
  rw [← List.drop_one, drop_laid_cons le_rfl]; rfl

@[simp] theorem fieldAt_laid_cons {n v : Nat} {fields : List (Nat × Nat)} {off len : Nat} (past : n ≤ off) :
    fieldAt (laid ((n, v) :: fields)) off len = fieldAt (laid fields) (off - n) len := by
  rw [fieldAt, drop_laid_cons past, fieldAt]

@[simp] theorem fieldAt_laid_head {w n : Nat} (v : BitVec w) (fields : List (Nat × Nat)) (fits : w ≤ 8 * n) :
    fieldAt (laid ((n, v.toNat) :: fields)) 0 n = v.toNat := by
  have small : v.toNat < 256 ^ n := calc
    v.toNat < 2 ^ w := v.isLt
    _ ≤ 2 ^ (8 * n) := Nat.pow_le_pow_right (by decide) fits
    _ = 256 ^ n := Nat.pow_mul 2 8 n
  rw [fieldAt, List.drop_zero, laid_cons, List.take_left' (length_beBytes n _), beNat_beBytes, Nat.mod_eq_of_lt small]

@[simp] theorem byteAt_laid_cons {n v : Nat} {fields : List (Nat × Nat)} {i : Nat} (past : n ≤ i) :
    byteAt (laid ((n, v) :: fields)) i = byteAt (laid fields) (i - n) := by
  rw [byteAt, laid_cons, List.getD_append_right _ _ _ _ ((length_beBytes n v).trans_le past), length_beBytes, byteAt]

@[simp] theorem byteAt_laid_head (v : Nat) (fields : List (Nat × Nat)) : byteAt (laid ((1, v) :: fields)) 0 = oneByte v := by
  rw [laid_cons, beBytes_one]; rfl

@[simp] theorem oneByte_bitAt (b : Bool) : (oneByte (bitAt b 0))[0] = b := by cases b <;> rfl

theorem oneByte_toNat_of_lt {n : Nat} (small : n < 256) : (oneByte n).toNat = n := by
  rw [oneByte, BitVec.toNat_ofNat, Nat.mod_eq_of_lt small]

/-! ### The layout of every request (Tables 11-13, 11-16 to 11-18, 11-20, 11-21) -/

/-- The fields of a reel entry of a SHOW write (Table 11-16). -/
def reelWriteFields (e : ReelWrite) : List (Nat × Nat) :=
  [(3, e.duration.toNat), (1, e.pictureRegion.toNat), (1, e.soundRegion.toNat), (1, e.pictureKey.toNat), (1, e.soundKey.toNat), (1, 0)]

theorem laid_reelWriteFields (e : ReelWrite) : laid (reelWriteFields e) = reelBytes e := by
  simp [reelWriteFields, reelBytes, laid_cons, laid_nil, beBytes_one, oneByte]

/-- The fields of a SHOW write (Table 11-16). -/
def showWriteFields (w : ShowWrite) : List (Nat × Nat) :=
  [(8, w.compositionId.toNat), (1, w.licenceSlot.toNat), (1, w.editRate.toNat), (1, w.sampleRate.toNat), (1, w.channels.toNat),
    (1, w.sync.toNat), (1, w.lead.toNat), (1, w.trail.toNat), (1, w.reels.length)] ++ w.reels.flatMap reelWriteFields

theorem requestFields_loadShow (w : ShowWrite) : requestFields (.loadShow w) = some (1, 4, 0, showWriteFields w) := rfl

theorem laid_showWriteFields (w : ShowWrite) : laid (showWriteFields w) = showWriteBytes w := by
  simp [showWriteFields, showWriteBytes, laid_flatMap, laid_reelWriteFields, laid_cons, beBytes_one, oneByte]

theorem laid_showWriteFields_length (w : ShowWrite) : (laid (showWriteFields w)).length = 16 + 8 * w.reels.length := by
  rw [showWriteFields, laid_append, laid_flatMap, List.length_append, List.length_flatMap]
  simp [laid_length, reelWriteFields, mul_comm]

/-- The packet of each request is laid out as its table says. -/
theorem encodeRequest_eq_requestFields (c : Instr) :
    encodeRequest c = (requestFields c).map fun (op, table, index, data) => (op, table, index, laid data) := by
  have zero (n : Nat) : beBytes n 0 = List.replicate n 0#8 := (zeroBytes_laid n).symm
  cases c
  case loadShow w =>
    show _ = some (1, 4, 0, laid (showWriteFields w))
    rw [laid_showWriteFields]; rfl
  case regionRecord | writeFilter | writePolicy =>
    simp [encodeRequest, requestFields, regionWriteBytes, filterWriteBytes, policyWriteBytes, laid_cons, laid_nil, beBytes_one,
      oneByte_toNat, flagByte_laid, zero]
  case writeLowMark lane m =>
    cases lane <;> simp [encodeRequest, requestFields, laid_cons, laid_nil, beBytes_one, oneByte_toNat, zero]
  case readRecord t i => cases t <;> rfl
  all_goals simp [encodeRequest, requestFields, laid_cons, laid_nil, beBytes_one, oneByte, zero]

/-- A well-formed request's data fits the length byte (Table 11-11). -/
theorem requestFields_fit {c : Instr} {op t i : Nat} {fields : List (Nat × Nat)} (wf : c.wellFormed = true)
    (h : requestFields c = some (op, t, i, fields)) : (laid fields).length < 256 := by
  cases c
  case loadShow w =>
    have few : w.reels.length ≤ 29 := of_decide_eq_true wf
    rw [requestFields_loadShow] at h
    cases h
    rw [laid_showWriteFields_length]
    omega
  all_goals cases h <;> simp [laid_length]

/-! ### The records of the writes, read back -/

section RecordsReadBack
variable {op t k : Nat} {fields : List (Nat × Nat)}

theorem readReels_laid (reels : List ReelWrite) : readReels reels.length (laid (reels.flatMap reelWriteFields)) = reels := by
  induction reels with
  | nil => rfl
  | cons e reels ih =>
    simpa [reelWriteFields, readReels, oneByte_toNat] using ih

theorem readRegion_laid {i : Fin 24} {w : RegionWrite} (h : requestFields (.regionRecord i w) = some (op, t, k, fields)) :
    readRegion (laid fields) = w := by
  cases h; simp [readRegion, oneByte_toNat]

theorem readFilter_laid {i : Fin 8} {w : FilterWrite} (h : requestFields (.writeFilter i w) = some (op, t, k, fields)) :
    readFilter (laid fields) = w := by
  cases h; simp [readFilter, oneByte_toNat]

theorem readPolicy_laid {kind : FaultKind} {w : PolicyWrite} (h : requestFields (.writePolicy kind w) = some (op, t, k, fields)) :
    readPolicy (laid fields) = w := by
  cases h; simp [readPolicy, oneByte_toNat]

theorem readShow_laid {w : ShowWrite} (few : w.reels.length < 256) : readShow (laid (showWriteFields w)) = w := by
  simp [readShow, showWriteFields, oneByte_toNat, oneByte_toNat_of_lt few, readReels_laid]

theorem readBlob_laid (blob : Blob) (fields : List (Nat × Nat)) : readBlob (laid ((48, blob.toNat) :: fields)) = blob := by
  simp [readBlob]

theorem readCheck_laid (v : Nat) (check : BitVec 32) : readCheck (laid [(48, v), (4, check.toNat)]) = check := by
  simp [readCheck]

end RecordsReadBack

end Sys2Proof.Machine
end

section
/-! SUPPORT. Proofs/PacketsReadBack.lean: a request's packet, read again, is the request; what the port acknowledges of it (R157, R158,
R165, Table 11-11). -/

namespace Sys2Proof.Machine

/-! ### The packet of Table 11-11 -/

/-- The bytes of a packet before its CRC byte. -/
def packetStem (straps : BitVec 2) (op table index : Byte) (data : List Byte) : List Byte :=
  [writeAddress straps, op, table, index, oneByte data.length] ++ data

/-- A whole packet: what stands before its CRC byte, and the CRC byte. -/
def packetOf (straps : BitVec 2) (op table index : Byte) (data : List Byte) : List Byte :=
  packetStem straps op table index data ++ [crc8 (packetStem straps op table index data)]

theorem packetStem_length (straps : BitVec 2) (op table index : Byte) (data : List Byte) :
    (packetStem straps op table index data).length = 5 + data.length := by
  rw [packetStem, List.length_append]; rfl

theorem packetOf_length (straps : BitVec 2) (op table index : Byte) (data : List Byte) :
    (packetOf straps op table index data).length = packetLength data.length := by
  rw [packetOf, List.length_append, packetStem_length, packetLength, List.length_singleton]
  omega

/-- The packet of a request holds the fields of its table. -/
theorem encodePacket_some {straps : BitVec 2} {c : Instr} {bytes : List Byte} (encoded : encodePacket straps c = some bytes) :
    ∃ op table index fields, requestFields c = some (op, table, index, fields) ∧
      bytes = packetOf straps (oneByte op) (oneByte table) (oneByte index) (laid fields) := by
  rw [encodePacket, encodeRequest_eq_requestFields, Option.map_map] at encoded
  obtain ⟨⟨op, table, index, fields⟩, named, rfl⟩ := Option.map_eq_some_iff.mp encoded
  exact ⟨op, table, index, fields, named, rfl⟩

section Packet
variable {straps : BitVec 2} {op table index : Byte} {data : List Byte}

theorem addressedTo_packetOf (extra : List Byte) : addressedTo straps (packetOf straps op table index data ++ extra) = true :=
  addressedTo_of_head rfl

theorem packetOf_op (extra : List Byte) : byteAt (packetOf straps op table index data ++ extra) 1 = op := rfl

theorem packetOf_table (extra : List Byte) : byteAt (packetOf straps op table index data ++ extra) 2 = table := rfl

theorem packetOf_index (extra : List Byte) : byteAt (packetOf straps op table index data ++ extra) 3 = index := rfl

theorem packetOf_lengthByte (fits : data.length < 256) (extra : List Byte) :
    (byteAt (packetOf straps op table index data ++ extra) 4).toNat = data.length := oneByte_toNat_of_lt fits

theorem packetBody_packetOf (fits : data.length < 256) (extra : List Byte) :
    packetBody (packetOf straps op table index data ++ extra) = packetStem straps op table index data := by
  rw [packetBody, packetOf_lengthByte fits, packetOf, List.append_assoc]
  exact List.take_left' (packetStem_length ..)

theorem packetData_packetOf (fits : data.length < 256) (extra : List Byte) :
    packetData (packetOf straps op table index data ++ extra) = data := by
  rw [packetData, packetBody_packetOf fits]; rfl

theorem packetWhole_packetOf (fits : data.length < 256) (extra : List Byte) :
    packetWhole (packetOf straps op table index data ++ extra) = true := by
  rw [packetWhole, packetOf_lengthByte fits, List.length_append, packetOf_length, packetLength, Bool.and_eq_true,
    decide_eq_true_eq, decide_eq_true_eq]
  omega

theorem packetCrcOk_packetOf (fits : data.length < 256) (extra : List Byte) :
    packetCrcOk (packetOf straps op table index data ++ extra) = true := by
  have crcByte : (packetOf straps op table index data ++ extra)[5 + data.length]? =
      some (crc8 (packetStem straps op table index data)) := by
    rw [packetOf, List.append_assoc, ← packetStem_length straps op table index, List.getElem?_append_right le_rfl, Nat.sub_self]; rfl
  rw [packetCrcOk, packetBody_packetOf fits, packetOf_lengthByte fits, byteAt_of_getElem? crcByte, beq_self_eq_true]

end Packet

/-! ### Reading a packet (R157, R158) -/

/-- Dispatch lets the request through R158's checks and takes it for this command. -/
def ReadsAs (op table index : Byte) (data : List Byte) (c : Instr) : Prop :=
  linkRefusal op table index data = none ∧ linkRequest op table index data = some c

/-- A packet whose request dispatch takes for a command is that command, whatever bytes follow it. -/
theorem decodePacket_packetOf {op table index : Byte} {data : List Byte} {c : Instr} (fits : data.length < 256)
    (reads : ReadsAs op table index data c) (straps : BitVec 2) (extra : List Byte) :
    decodePacket straps (packetOf straps op table index data ++ extra) = .request c := by
  obtain ⟨passes, request⟩ := reads
  simp only [decodePacket, addressedTo_packetOf, packetWhole_packetOf fits, packetCrcOk_packetOf fits, packetData_packetOf fits,
    packetOf_op, packetOf_table, packetOf_index, passes, request]
  rfl

/-- The address byte of a write to the part (R157). -/
theorem writeAddress_toNat (straps : BitVec 2) : (writeAddress straps).toNat = 2 * (88 + straps.toNat) := by
  have := straps.isLt
  rw [writeAddress, BitVec.toNat_ofNat]; omega

theorem readAddress_toNat (straps : BitVec 2) : (readAddress straps).toNat = 2 * (88 + straps.toNat) + 1 := by
  have := straps.isLt
  rw [readAddress, BitVec.toNat_ofNat]; omega

theorem not_addressedTo {straps : BitVec 2} {first : Byte} (other : first.toNat ≠ 2 * (88 + straps.toNat)) (rest : List Byte) :
    addressedTo straps (first :: rest) = false := by
  have differ : first ≠ writeAddress straps := fun same => other (same ▸ writeAddress_toNat straps)
  simpa [addressedTo] using differ

/-- A transfer to another address, or one that asks to read, is ignored. -/
theorem decodePacket_not_addressed {straps : BitVec 2} {first : Byte} (other : first.toNat ≠ 2 * (88 + straps.toNat))
    (rest : List Byte) : decodePacket straps (first :: rest) = .ignored := by
  simp only [decodePacket, not_addressedTo other]; rfl

/-! ### Requests that pass R158's checks, by their op -/

section Dispatch
variable {t i : Byte} {d : List Byte} {c : Instr}

/-- A WRITE RECORD in its table's range, of its write length. -/
theorem writeRecord_readsAs {table : LinkTable} (named : tableOf t = some table) (writable : tableWritable table = true)
    (inside : i.toNat < tableIndexes table) (fits : WriteFits table i d) (request : writeRequest table i d = some c) :
    ReadsAs 1#8 t i d c := by
  refine ⟨(linkRefusal_write named writable i d).trans
    (indexAndLength_right inside ((writeLengthOk_iff table i d).mpr fits)), ?_⟩
  simp only [linkRequest, linkOpOf_one, named, Option.bind_some, request]

theorem readRecord_readsAs {table : LinkTable} (named : tableOf t = some table) (inside : i.toNat < tableIndexes table) :
    ReadsAs 2#8 t i [] (.readRecord table i) := by
  refine ⟨(linkRefusal_read named i []).trans (indexAndLength_right inside rfl), ?_⟩
  simp only [linkRequest, linkOpOf_two, named, Option.map_some]

/-- A COMMAND in its range, with its arguments' length (Table 11-2). -/
theorem command_readsAs {indexes args : Nat} (named : commandShape t = some (indexes, args)) (inside : i.toNat < indexes)
    (fits : d.length = args) (request : commandRequest t i d = some c) : ReadsAs 3#8 t i d c :=
  ⟨(linkRefusal_command named i d).trans (indexAndLength_right inside fits), request⟩

end Dispatch

/-! ### The command that each request is, by its table or code -/

theorem oneByte_fin_toNat {n : Nat} (small : n ≤ 256) (i : Fin n) : (oneByte i.val).toNat = i.val :=
  oneByte_toNat_of_lt (i.isLt.trans_le small)

theorem oneByte_fin_lt {n : Nat} (small : n ≤ 256) (i : Fin n) : (oneByte i.val).toNat < n :=
  (oneByte_fin_toNat small i).trans_lt i.isLt

theorem writeRequest_region (i : Fin 24) (d : List Byte) :
    writeRequest .region (oneByte i.val) d = some (.regionRecord i (readRegion d)) := by
  simp [writeRequest, oneByte_fin_toNat]

theorem writeRequest_key (i : Fin 16) (d : List Byte) :
    writeRequest .key (oneByte i.val) d = some (.loadKey i (readBlob d) (readCheck d)) := by
  simp [writeRequest, oneByte_fin_toNat]

theorem writeRequest_licence (i : Fin 8) (d : List Byte) :
    writeRequest .licence (oneByte i.val) d = some (.loadLicence i (readBlob d) (readCheck d)) := by
  simp [writeRequest, oneByte_fin_toNat]

theorem writeRequest_filter (i : Fin 8) (d : List Byte) :
    writeRequest .filter (oneByte i.val) d = some (.writeFilter i (readFilter d)) := by
  simp [writeRequest, oneByte_fin_toNat]

theorem writeRequest_policy (k : FaultKind) (d : List Byte) :
    writeRequest .policy (oneByte (faultIndex k).val) d = some (.writePolicy k (readPolicy d)) := by
  cases k <;> rfl

theorem commandRequest_purgeKey (i : Fin 16) (d : List Byte) :
    commandRequest 12#8 (oneByte i.val) d = some (.purgeKey i) := by
  simp [commandRequest, oneByte_fin_toNat]

theorem commandRequest_deleteLicence (i : Fin 8) (d : List Byte) :
    commandRequest 13#8 (oneByte i.val) d = some (.deleteLicence i) := by
  simp [commandRequest, oneByte_fin_toNat]

theorem tableOf_tableNumber (t : LinkTable) : tableOf (oneByte (tableNumber t)) = some t := by cases t <;> rfl

theorem requestFields_readRecord (t : LinkTable) (i : Byte) :
    requestFields (.readRecord t i) = some (2, tableNumber t, i.toNat, []) := by cases t <;> rfl

theorem showWriteFields_reelCount (w : ShowWrite) : (laid (showWriteFields w))[15]? = some (oneByte w.reels.length) := by
  rw [laid_showWriteFields]; rfl

/-! ### Every request reads as itself -/

/-- Dispatch takes every well-formed request, each op by the row of its table, for the request itself. -/
theorem request_readsAs {c : Instr} {op table index : Nat} {fields : List (Nat × Nat)} (wf : c.wellFormed = true)
    (named : requestFields c = some (op, table, index, fields)) :
    ReadsAs (oneByte op) (oneByte table) (oneByte index) (laid fields) c := by
  cases c
  case regionRecord i w =>
    have record := readRegion_laid named
    cases named
    exact writeRecord_readsAs (table := .region) rfl rfl (oneByte_fin_lt (by decide) i) rfl (by rw [writeRequest_region, record])
  case loadKey i blob check =>
    cases named
    exact writeRecord_readsAs (table := .key) rfl rfl (oneByte_fin_lt (by decide) i) rfl
      (by rw [writeRequest_key, readBlob_laid, readCheck_laid])
  case loadLicence i blob check =>
    cases named
    exact writeRecord_readsAs (table := .licence) rfl rfl (oneByte_fin_lt (by decide) i) rfl
      (by rw [writeRequest_licence, readBlob_laid, readCheck_laid])
  case loadShow w =>
    have few : w.reels.length < 256 := (of_decide_eq_true wf : w.reels.length ≤ 29).trans_lt (by decide)
    rw [requestFields_loadShow] at named
    cases named
    refine writeRecord_readsAs (table := .showing) rfl rfl (by decide) ⟨_, showWriteFields_reelCount w, ?_⟩ ?_
    · rw [laid_showWriteFields_length, oneByte_toNat_of_lt few]
    · rw [writeRequest, readShow_laid few]
  case writeFilter i w =>
    have record := readFilter_laid named
    have filter : (oneByte i.val).toNat < 8 := oneByte_fin_lt (by decide) i
    cases named
    refine writeRecord_readsAs (table := .filter) rfl rfl (filter.trans (by decide)) ?_ (by rw [writeRequest_filter, record])
    rw [WriteFits, if_pos filter]; rfl
  case writePolicy k w =>
    have record := readPolicy_laid named
    cases named
    exact writeRecord_readsAs (table := .policy) rfl rfl (oneByte_fin_lt (by decide) (faultIndex k)) rfl
      (by rw [writeRequest_policy, record])
  case writeDefaultAction a =>
    cases named
    exact writeRecord_readsAs (table := .filter) rfl rfl (by decide) rfl (by simp [writeRequest, oneByte])
  case writeLowMark lane m =>
    cases lane <;> cases named
    · exact writeRecord_readsAs (table := .filter) rfl rfl (by decide) rfl (by simp [writeRequest, oneByte])
    · exact writeRecord_readsAs (table := .filter) rfl rfl (by decide) rfl (by simp [writeRequest, oneByte])
  case writeEvents e l =>
    cases named
    exact writeRecord_readsAs (table := .events) rfl rfl (by decide) rfl (by simp [writeRequest, oneByte_toNat])
  case writeClock w l =>
    cases named
    exact writeRecord_readsAs (table := .clock) rfl rfl (by decide) rfl (by simp [writeRequest, oneByte_toNat])
  case readRecord t i =>
    have inside : i.toNat < tableIndexes t := of_decide_eq_true wf
    rw [requestFields_readRecord] at named
    cases named
    rw [oneByte_toNat]
    exact readRecord_readsAs (tableOf_tableNumber t) inside
  case purgeKey i =>
    cases named
    exact command_readsAs rfl (oneByte_fin_lt (by decide) i) rfl (commandRequest_purgeKey i _)
  case deleteLicence i =>
    cases named
    exact command_readsAs rfl (oneByte_fin_lt (by decide) i) rfl (commandRequest_deleteLicence i _)
  case prime | primePreview | start | hold | resume | stop | unload | tickle | reset =>
    cases named
    exact command_readsAs rfl (by decide) rfl rfl
  case clearFaults | setMute | laneEnable | popLog | setTime | trimTime | setScreen | ackEvents =>
    cases named
    exact command_readsAs rfl (by decide) rfl (by simp [commandRequest, oneByte])
  all_goals cases named

/-! ### What the port acknowledges (R157) -/

theorem byteAt_take {p : List Byte} {n i : Nat} (inside : i < n) : byteAt (p.take n) i = byteAt p i := by
  simp [byteAt, inside]

section Acknowledged
variable {straps : BitVec 2} {op table index : Byte} {data : List Byte}

theorem ackedBytes_packetOf (fits : data.length < 256) (extra : List Byte) :
    ackedBytes straps (packetOf straps op table index data ++ extra) = (packetOf straps op table index data).length := by
  rw [ackedBytes_addressed (addressedTo_packetOf extra), packetOf_lengthByte fits, packetOf_length]
  refine Nat.min_eq_right ?_
  rw [List.length_append, packetOf_length]
  exact Nat.le_add_right _ _

/-- Of a part of a packet the port acknowledges what there is. -/
theorem ackedBytes_take (fits : data.length < 256) {n : Nat} (part : n ≤ (packetOf straps op table index data).length) :
    ackedBytes straps ((packetOf straps op table index data).take n) = n := by
  obtain _ | n := n
  · rfl
  have own : addressedTo straps ((packetOf straps op table index data).take (n + 1)) = true := addressedTo_of_head rfl
  have lengthByte := packetOf_lengthByte (straps := straps) (op := op) (table := table) (index := index) fits []
  rw [List.append_nil] at lengthByte
  rw [ackedBytes_addressed own, List.length_take, Nat.min_eq_left part]
  refine Nat.min_eq_left ?_
  by_cases header : 4 < n + 1
  · rw [byteAt_take header, lengthByte, ← packetOf_length straps op table index]
    exact part
  · unfold packetLength
    omega

end Acknowledged

theorem ackedBytes_not_addressed {straps : BitVec 2} {first : Byte} (other : first.toNat ≠ 2 * (88 + straps.toNat))
    (rest : List Byte) :
    ackedBytes straps (first :: rest) = if first.toNat = 2 * (88 + straps.toNat) + 1 then 1 else 0 := by
  have asked : (first :: rest).head? = some (readAddress straps) ↔ first.toNat = 2 * (88 + straps.toNat) + 1 := by
    rw [List.head?_cons, Option.some.injEq, ← readAddress_toNat, BitVec.toNat_inj]
  simp only [ackedBytes, not_addressedTo other, beq_iff_eq, asked]
  rfl

/-- A request carried out has had its whole packet acknowledged: its length as its fields give it. -/
theorem exec_request {c : Instr} {op table index : Nat} {fields : List (Nat × Nat)}
    (named : requestFields c = some (op, table, index, fields)) (s : State) :
    ∃ f, exec c s = .next (onLink (packetLength (laid fields).length) s f) := by
  cases c
  case loadShow w =>
    rw [requestFields_loadShow] at named
    cases named
    rw [laid_showWriteFields_length]
    exact ⟨_, rfl⟩
  all_goals cases named <;> exact ⟨_, rfl⟩

/-- Settles O53: each request's packet is laid out as its table says, reads back as the request, and is acknowledged whole. -/
theorem packetsReadBack : Obligations.PacketsReadBack := by
  unfold Obligations.PacketsReadBack
  refine ⟨fun straps c bytes extra wf encoded => ?_, fun _ _ rest other => decodePacket_not_addressed other rest,
    encodeRequest_eq_requestFields, fun straps c bytes wf encoded => ?_, fun _ _ rest other => ackedBytes_not_addressed other rest⟩
  · obtain ⟨op, table, index, fields, named, rfl⟩ := encodePacket_some encoded
    exact decodePacket_packetOf (requestFields_fit wf named) (request_readsAs wf named) straps extra
  · obtain ⟨op, table, index, fields, named, rfl⟩ := encodePacket_some encoded
    have fits := requestFields_fit wf named
    refine ⟨ackedBytes_packetOf fits, fun n => ackedBytes_take fits, fun s linked _ => ?_⟩
    obtain ⟨f, carried⟩ := exec_request named s
    exact ⟨_, carried, by rw [onLink_linked linked, packetOf_length]; rfl⟩

end Sys2Proof.Machine
end

section
/-! SUPPORT. Proofs/FrontCommand.lean: a step with a command waiting, beside the idle step of Proofs/Timebase.lean (0.6). -/

namespace Sys2Proof.Machine

/-- The command at the front leaves the queue before it runs; `step_idle` is the step of an empty queue. -/
theorem step_waiting {s : State} {c : Instr} {rest : List Instr} (h : s.pending = c :: rest) :
    step s = exec c (s.setPending rest) := by
  unfold step; rw [h]

/-- Of two queues given one after the other the state holds the second. -/
@[simp] theorem setPending_setPending (s : State) (first second : List Instr) :
    (s.setPending first).setPending second = s.setPending second := rfl

/-- Settles O1: the front command runs on the state that holds the queue's rest in the place of the whole queue. -/
theorem stepRunsTheFrontCommand : Obligations.StepRunsTheFrontCommand := by
  unfold Obligations.StepRunsTheFrontCommand
  intro c rest s
  calc step (s.setPending (c :: rest))
    _ = exec c ((s.setPending (c :: rest)).setPending rest) := step_waiting (setPending_pending s (c :: rest))
    _ = exec c (s.setPending rest) := by rw [setPending_setPending]

end Sys2Proof.Machine
end
